-- ==== Sys2Proof/Word.lean ====
section
/-! DEFINITION. Sys2Proof/Word.lean: the two sizes of value the hardware has, a byte and a 32-bit word
(00_scope.md rules R14, R17). Lengths and bit counts are natural numbers, as rule R14 has them. -/

namespace Sys2Proof

/-- One buffer element: a number 0 to 255 (rules R14, R17). -/
abbrev Byte := BitVec 8

/-- One word register, or one command word (rules R14, R80). -/
abbrev Word := BitVec 32

end Sys2Proof
end

