-- ==== Sys2Proof/Config.lean ====
section
/-! DEFINITION. Sys2Proof/Config.lean: what an instance of the core fixes (00_scope.md rules R7 to R12) and
the free values. The numeric parameters and `VARIANT` are plain data, held in State as the read-only
parameter registers (rules R20, R36); the function-valued collaborators are uninterpreted constants. -/

namespace Sys2Proof

/-- `VARIANT`: which wrapper front-end is present (rule R9). -/
inductive Variant where
  /-- The core alone. -/
  | none
  /-- The digest-accumulating wrapper. -/
  | hashing
  /-- The raw wrapper. -/
  | raw
  deriving DecidableEq, Repr

/-- The parameters of one instance, fixed for its life (rules R7, R9, R11, R36, R232). -/
structure Params where
  /-- `HLEN`, the hash output length in bytes (rule R7). -/
  hlen : Nat
  /-- `EMAX`, capacity of the EM buffer (rule R11). -/
  emax : Nat
  /-- `SCAP`, capacity of the SALT buffer (rule R11). -/
  scap : Nat
  /-- `DCAP`, capacity of the DIGEST buffer (rule R11). -/
  dcap : Nat
  /-- `MCAP`, capacity of the MSG buffer, present when `VARIANT ≠ NONE` (rule R11). -/
  mcap : Nat
  /-- `VARIANT` (rule R9). -/
  variant : Variant
  deriving DecidableEq, Repr

/-- The ranges rules R7 and R11 give the parameters. No instance outside them exists (log 17). -/
abbrev Params.Valid (p : Params) : Prop :=
  1 ≤ p.hlen ∧ p.hlen ≤ p.dcap ∧ p.dcap ≤ 256 ∧
  p.hlen + 2 ≤ p.emax ∧ p.emax ≤ 4096 ∧ p.scap ≤ 4096 ∧ 1 ≤ p.mcap ∧ p.mcap ≤ 256

/-- The instance the model resets to: the defaults of rules R7 and R11 (log 2), with the wrapper present so
that all six rows of the opcode table are commands. DESIGN CHOICE: `VARIANT = HASHING`, where rule R9's default
for the core alone is `NONE` (log 1). Statements hold for every `Params`, not for this one. -/
def Config.params : Params :=
  { hlen := 32, emax := 1024, scap := 1024, dcap := 64, mcap := 64, variant := .hashing }

/-- `Hash` (rule R8): for each output length, an arbitrary total function of the bytes hashed, with exactly that
many bytes of output. Nothing else is assumed of it (log 3). -/
opaque Config.hash : (n : Nat) → List Byte → Vector Byte n

/-- `Rng` (rule R10): the bytes of the `k`-th draw when `n` bytes are asked for. A free value under no law (log 5). -/
opaque Config.rng : (k n : Nat) → Vector Byte n

/-- What the `k`-th undetermined read returns for a buffer byte read while busy (rules R64, R242). A free value (log 6). -/
opaque Config.busyByte : (k : Nat) → Byte

/-- What the `k`-th undetermined read returns for a length register that the command in progress will write (rule
R242). A free value (log 7). -/
opaque Config.busyWord : (k : Nat) → Word

/-- The function-valued parameters of the step relation that commands call (rules R8, R10, R12, R20). The commands
are written over an arbitrary `Collab`, so that a test can run them with a fixture hash. -/
structure Collab where
  /-- `Hash`, by output length (rule R8). -/
  hash : (n : Nat) → List Byte → Vector Byte n
  /-- `MGF_CTR` (rule R12). -/
  ctr : Nat → List Byte
  /-- `Rng`, by draw and length (rule R10). -/
  rng : (k n : Nat) → Vector Byte n

end Sys2Proof
end

