-- ==== Sys2Proof/Syntax.lean ====
section
/-! DEFINITION. Sys2Proof/Syntax.lean: the commands of the core, one constructor per row of
spec/opcode_table.json (30_encoding.md rule R81). A command carries no operand field (rule R80): every
operand is a fixed register or buffer (rule R86). -/

namespace Sys2Proof

/-- The six commands of rule R81. The document's wrapper operation `verify` is `verify` too (rule R184). -/
inductive Instr where
  /-- MASK, command word 1: the XOR masker on the EM buffer (rule R105). -/
  | mask
  /-- ENCODE, command word 2: the encoder (rule R121). -/
  | encode
  /-- VERIFY, command word 3: the verifier with the salt-length policy (rule R141). -/
  | verify
  /-- UPDATE, command word 4: append MSG bytes to the accumulator (rule R171). -/
  | update
  /-- FINALIZE, command word 5: produce the digest and drain the accumulator (rule R174). -/
  | finalize
  /-- ENCODE_RND, command word 6: draw a salt, then encode (rule R180). -/
  | encodeRnd
  deriving DecidableEq, Repr

end Sys2Proof
end

