-- ==== Sys2Proof/WellFormed.lean ====
section
/-! DEFINITION. Sys2Proof/WellFormed.lean: which commands an instance has (30_encoding.md rule R81, column "present")
and which command words keep the reserved field zero (rule R80). -/

namespace Sys2Proof

/-- The wrapper's commands exist only when `VARIANT ≠ NONE`; the core's three always do (rule R81). -/
def Instr.wellFormed (v : Variant) : Instr → Bool
  | .mask | .encode | .verify => true
  | .update | .finalize | .encodeRnd => v != .none

/-- Field `RSV`, bits 31:4, "must be written as 0" (rule R80). -/
def reservedClear (w : Word) : Bool := w.extractLsb' 4 28 == 0

end Sys2Proof
end

