-- ==== Sys2Proof/Decode.lean ====
section
/-! DEFINITION. Sys2Proof/Decode.lean: the decoder of 30_encoding.md rule R90, total on all 2^32 command words, the
encoder beside it, and the host's two views of them. -/

namespace Sys2Proof

/-- Why a command word is illegal (rule R84). All three end alike, in `ERR_ILLEGAL_CMD`. -/
inductive DecodeError where
  /-- A bit of 31:4 is set. -/
  | reservedBits
  /-- `OP` is 0x0 or 0x7 to 0xF. -/
  | reservedOpcode
  /-- `OP` is 0x4 to 0x6 and `VARIANT = NONE`. -/
  | absentWrapper
  deriving DecidableEq, Repr

/-- Field `OP`, bits 3:0 (rule R80). -/
def opField (w : Word) : BitVec 4 := w.extractLsb' 0 4

/-- The command a value of `OP` names when the wrapper is present (rule R81). -/
def opcodeInstr (op : BitVec 4) : Option Instr :=
  match op.toNat with
  | 1 => some .mask
  | 2 => some .encode
  | 3 => some .verify
  | 4 => some .update
  | 5 => some .finalize
  | 6 => some .encodeRnd
  | _ => none

/-- Rule R90: reserved bits first, then the opcode, then presence for this `VARIANT`. -/
def decode (v : Variant) (w : Word) : Except DecodeError Instr :=
  if reservedClear w then
    match opcodeInstr (opField w) with
    | none => .error .reservedOpcode
    | some i => if i.wellFormed v then .ok i else .error .absentWrapper
  else .error .reservedBits

/-- The value of `OP` for each command (rule R81). -/
def Instr.opcode : Instr → BitVec 4
  | .mask => 1
  | .encode => 2
  | .verify => 3
  | .update => 4
  | .finalize => 5
  | .encodeRnd => 6

/-- The command word of each command: `RSV` zero above `OP` (rules R80, R81). -/
def encodeWord (i : Instr) : Word := (0 : BitVec 28) ++ i.opcode

/-- The host's view of the decoder: bits of the table's numbering are bits of the one 32-bit command word, for the
instance the model resets to. -/
def decodeTableWord (nbits w : Nat) : Option Instr :=
  match decode Config.params.variant (BitVec.ofNat 32 (w % 2 ^ nbits)) with
  | .ok i => some i
  | .error _ => none

end Sys2Proof
end

