-- ==== Sys2Proof/Machine/State.lean ====
section
/-! DEFINITION. Sys2Proof/Machine/State.lean: the complete state of one core instance (10_state.md rule R20), the
agents' schedule, and the state after reset (rules R54, R230). -/

namespace Sys2Proof.Machine

/-- The reasons a step stops with a fault: none. Every error of this hardware is a completion that leaves the
core usable (60_exceptions.md rules R205, R208), every illegal bus access has a stated effect (20_memory.md rule
R66), and no command indexes a buffer out of range (rule R78); so no constructor exists (log 19). -/
inductive Fault
  deriving DecidableEq, Repr

/-- The reasons a step is refused. -/
inductive Refusal where
  /-- An instruction with no meaning in the model. Raised by nobody: every arm of `exec` has its meaning. It would
  be safe: the model stops where the hardware goes on. -/
  | notModelled (mnemonic : String)
  deriving DecidableEq, Repr

/-- The five flags of `STATUS`; bits 31:5 read as 0 (rule R25). -/
structure Status where
  /-- Bit 0: a command is in progress. -/
  busy : Bool
  /-- Bit 1: the last started command has completed. -/
  done : Bool
  /-- Bit 2: the last completed command ended with an encoding error. -/
  err : Bool
  /-- Bit 3: the last completed command was a VERIFY that returned true. -/
  vok : Bool
  /-- Bit 4: the wrapper is in the state *Accumulating* (rule R178). -/
  accum : Bool
  deriving DecidableEq, Repr

/-- The cause codes of `ERRCODE` (rule R201); codes 7 to 15 are never produced, so they have no name here. -/
inductive ErrCode where
  | none
  | digestLen
  | outputBits
  | rawLen
  | illegalCmd
  | capacity
  | invariant
  deriving DecidableEq, Repr

/-- The four byte buffers the host can reach (rule R40). -/
inductive Buffer where
  | digest
  | msg
  | salt
  | em
  deriving DecidableEq, Repr

/-- The word registers of the map of rule R23. -/
inductive Reg where
  | cmd
  | status
  | errcode
  | bits
  | digestLen
  | saltLen
  | emLen
  | cfg
  | cfgSaltLen
  | saltLenOut
  | msgLen
  | accLen
  | paramHlen
  | paramEmax
  | paramScap
  | paramDcap
  | paramMcap
  | paramVariant
  | version
  deriving DecidableEq, Repr

/-- The host's two bus primitives (20_memory.md rule R60): an offset, a width in bytes and, for a write, a value.
A 1-byte write carries the low 8 bits of `v` (log 14). -/
inductive BusOp where
  | read (addr n : Nat)
  | write (addr n : Nat) (v : Word)
  deriving DecidableEq, Repr

/-- Who moves next (log 8): the host with one transaction, the core, or the reset input. -/
inductive Event where
  /-- The host issues one bus transaction (rule R60). -/
  | bus (op : BusOp)
  /-- The core takes its completion step if a command is in progress (rule R83). -/
  | core
  /-- The reset input is asserted and released (rules R230, R231). -/
  | reset
  deriving DecidableEq, Repr

/-- Bytes by address, in one canonical form: addresses strictly rising and no zero byte listed. An unlisted byte
reads 0x00, which is what reset leaves in every buffer (rules R54, R230; log 15). -/
abbrev Memory := List Host.Cell

/-- The state of one core instance (rule R20), and the schedule and the host's side of the bus. -/
structure State where
  /-- The parameter registers (rule R36). -/
  params : Params
  /-- `STATUS` (rule R25). -/
  status : Status
  /-- `ERRCODE` (rule R26). -/
  errCode : ErrCode
  /-- `BITS` (rule R27). -/
  bits : Word
  /-- `DIGEST_LEN` (rule R28). -/
  digestLen : Word
  /-- `SALT_LEN` (rule R29). -/
  saltLen : Word
  /-- `EM_LEN` (rule R30). -/
  emLen : Word
  /-- `CFG`, bit 0 is `REQ_SALT` (rule R32). -/
  cfg : Word
  /-- `CFG_SALT_LEN` (rule R33). -/
  cfgSaltLen : Word
  /-- `SALT_LEN_OUT` (rule R34). -/
  saltLenOut : Word
  /-- `MSG_LEN` (rule R31). -/
  msgLen : Word
  /-- `ACC_LEN` (rule R35). -/
  accLen : Word
  /-- `OPLATCH`, hidden (rule R50). -/
  opLatch : Word
  /-- The buffers DIGEST, MSG, SALT and EM at their bus addresses (rule R40). -/
  mem : Memory
  /-- `W`, hidden, by index (rule R51; log 12). -/
  work : Memory
  /-- `ACC`, hidden (rule R52). -/
  acc : List Byte
  /-- The model's own: the agents' schedule, first entry next (log 8). -/
  events : List Event
  /-- The model's own: what the last `MemRead` returned to the host (log 9). -/
  busData : Word
  /-- The model's own: how many draws `Rng` has answered (log 5). -/
  rngDraws : Nat
  /-- The model's own: how many undetermined reads were made while busy (logs 6, 7). -/
  busyReads : Nat
  deriving DecidableEq, Repr

/-- The state after reset of an instance with parameters `p` (rules R54, R230). -/
def State.resetOf (p : Params) : State :=
  { params := p
    status := { busy := false, done := false, err := false, vok := false, accum := false }
    errCode := .none
    bits := 0, digestLen := 0, saltLen := 0, emLen := 0, cfg := 0, cfgSaltLen := 0, saltLenOut := 0
    msgLen := 0, accLen := 0, opLatch := 0
    mem := [], work := [], acc := []
    events := [], busData := 0, rngDraws := 0, busyReads := 0 }

/-- The machine right after reset: the default instance (logs 1, 2), nothing scheduled. -/
def State.reset : State := State.resetOf Config.params

end Sys2Proof.Machine
end

