-- ==== Sys2Proof/Machine/Flags.lean ====
section
/-! DEFINITION. Sys2Proof/Machine/Flags.lean: every change a rule makes to `STATUS`, the words the host reads for
`STATUS` and `ERRCODE`, and the bit counts the checks use. -/

namespace Sys2Proof.Machine

/-- Command start sets `BUSY` and clears `DONE`, `ERR`, `VOK`; `ACCUM` is unchanged (rule R82). -/
def Status.start (f : Status) : Status := { f with busy := true, done := false, err := false, vok := false }

/-- The general completion: `BUSY <- 0`, `DONE <- 1` (rule R83). -/
def Status.complete (f : Status) : Status := { f with busy := false, done := true }

/-- `STATUS.ERR <- 1` of an error completion (rule R205). -/
def Status.setErr (f : Status) : Status := { f with err := true }

/-- `STATUS.VOK <- 1` of the true completion of VERIFY (rule R156). -/
def Status.setVok (f : Status) : Status := { f with vok := true }

/-- `STATUS.ACCUM`: 1 is *Accumulating*, 0 is *Idle* (rule R178). -/
def Status.setAccum (b : Bool) (f : Status) : Status := { f with accum := b }

/-- `STATUS` as the host reads it: bits 4:0, bits 31:5 zero (rule R25). -/
def Status.word (f : Status) : Word :=
  BitVec.ofNat 32 (f.busy.toNat + 2 * f.done.toNat + 4 * f.err.toNat + 8 * f.vok.toNat + 16 * f.accum.toNat)

/-- The cause code numbers of rule R201. -/
def ErrCode.number : ErrCode → Nat
  | .none => 0
  | .digestLen => 1
  | .outputBits => 2
  | .rawLen => 3
  | .illegalCmd => 4
  | .capacity => 5
  | .invariant => 6

/-- `ERRCODE` as the host reads it: the code in bits 3:0, bits 31:4 zero (rule R26). -/
def ErrCode.word (e : ErrCode) : Word := BitVec.ofNat 32 e.number

/-- The value `PARAM_VARIANT` reads (rules R9, R23). -/
def variantWord : Variant → Word
  | .none => 0
  | .hashing => 1
  | .raw => 2

/-- `sigbits(b)`: 0 for a zero byte, else the index of the highest set bit plus one (rule R16). -/
def sigbits (b : Byte) : Nat := (List.range 8).foldl (fun n k => if b.getLsbD k then k + 1 else n) 0

/-- `0xFF >> t`: the byte with the top `t` bits clear (rule R14). -/
def topMask (t : Nat) : Byte := 0xFF#8 >>> t

/-- `ceil(n / 8)` (rule R14). -/
def ceil8 (n : Nat) : Nat := (n + 7) / 8

end Sys2Proof.Machine
end

