-- ==== Sys2Proof/Machine/Ops.lean ====
section
/-! DEFINITION. Sys2Proof/Machine/Ops.lean: the named operations over memory and registers, command start and the
completions. `State.raise` is this hardware's whole exception entry (60_exceptions.md rule R205); there is no
return from it (rule R208): the next `State.startCommand` clears what it recorded. -/

namespace Sys2Proof.Machine

/-! ### Memory: one sparse byte store, used for the host-visible buffers and for `W` -/

/-- The byte at address `a`; an unlisted byte is 0x00 (rule R54, log 15). -/
def Memory.read (m : Memory) (a : Nat) : Byte :=
  match m with
  | [] => 0
  | (k, v) :: t => if k = a then v else Memory.read t a

/-- The memory with nothing listed at `a`. -/
def Memory.drop (m : Memory) (a : Nat) : Memory := m.filter (fun c => c.1 != a)

/-- The memory with `v` listed at `a`, in its place in the rising order. -/
def Memory.place (m : Memory) (a : Nat) (v : Byte) : Memory :=
  match m with
  | [] => [(a, v)]
  | (k, x) :: t => if a < k then (a, v) :: (k, x) :: t else (k, x) :: Memory.place t a v

/-- Write one byte, keeping the canonical form: a zero byte is not listed. -/
def Memory.write (m : Memory) (a : Nat) (v : Byte) : Memory :=
  if v = 0 then Memory.drop m a else Memory.place (Memory.drop m a) a v

/-- The `n` bytes from address `a` up. -/
def Memory.readBytes (m : Memory) (a n : Nat) : List Byte :=
  match n with
  | 0 => []
  | n + 1 => Memory.read m a :: Memory.readBytes m (a + 1) n

/-- Write bytes from address `a` up, in index order. -/
def Memory.writeBytes (m : Memory) (a : Nat) (bs : List Byte) : Memory :=
  match bs with
  | [] => m
  | b :: bs => Memory.writeBytes (Memory.write m a b) (a + 1) bs

/-- The canonical form: addresses strictly rising, no byte listed that an unlisted address would read as. -/
def Memory.wf : Memory → Bool
  | [] => true
  | (a, v) :: t => v != 0 && t.all (fun c => decide (a < c.1)) && Memory.wf t

/-! ### Buffers (rule R40) -/

/-- The window base of a buffer (rule R40). -/
def Buffer.base : Buffer → Nat
  | .digest => 0x0100
  | .msg => 0x0200
  | .salt => 0x1000
  | .em => 0x2000

/-- The capacity of a buffer; the MSG buffer does not exist when `VARIANT = NONE` (rules R11, R40). -/
def Buffer.cap (p : Params) : Buffer → Nat
  | .digest => p.dcap
  | .msg => if p.variant = .none then 0 else p.mcap
  | .salt => p.scap
  | .em => p.emax

/-- The bus address `a` is a byte of buffer `b` that exists (rules R40, R64). -/
def Buffer.holds (p : Params) (b : Buffer) (a : Nat) : Bool :=
  decide (b.base ≤ a) && decide (a < b.base + b.cap p)

/-- The bus address `a` is a byte of some buffer. -/
def bufferByte (p : Params) (a : Nat) : Bool :=
  Buffer.holds p .digest a || Buffer.holds p .msg a || Buffer.holds p .salt a || Buffer.holds p .em a

/-- `BUF[i]`. -/
def State.bufByte (b : Buffer) (i : Nat) (s : State) : Byte := s.mem.read (b.base + i)

/-- `BUF[0 .. n)`. -/
def State.buf (b : Buffer) (n : Nat) (s : State) : List Byte := s.mem.readBytes b.base n

/-- `BUF[0 .. len(bs)) <- bs`. -/
def State.storeBuf (b : Buffer) (bs : List Byte) (s : State) : State :=
  { s with mem := s.mem.writeBytes b.base bs }

/-! ### Registers a command writes (rule R39) -/

/-- `REG.EM_LEN <- n` (rule R131). -/
def State.setEmLen (n : Nat) (s : State) : State := { s with emLen := BitVec.ofNat 32 n }

/-- `REG.DIGEST_LEN <- n` (rule R174). -/
def State.setDigestLen (n : Nat) (s : State) : State := { s with digestLen := BitVec.ofNat 32 n }

/-- `REG.SALT_LEN <- v` (rule R180). -/
def State.setSaltLen (v : Word) (s : State) : State := { s with saltLen := v }

/-- `REG.ACC_LEN` of an accumulator: its length, saturating at `2^32 − 1` (rule R35). -/
def accLenOf (acc : List Byte) : Word := BitVec.ofNat 32 (min acc.length (2 ^ 32 - 1))

/-- `ACC <- acc`, `REG.ACC_LEN` and `STATUS.ACCUM` with it (rules R171, R174). -/
def State.setAcc (acc : List Byte) (accum : Bool) (s : State) : State :=
  { s with acc := acc, accLen := accLenOf acc, status := s.status.setAccum accum }

/-- `W <- 0x00` everywhere (rules R51, R158). -/
def State.clearWork (s : State) : State := { s with work := [] }

/-- Command start (rule R82): the whole word is latched, the flags and outcome registers of the last command are
cleared, nothing else changes. -/
def State.startCommand (v : Word) (s : State) : State :=
  { s with opLatch := v, status := s.status.start, errCode := .none, saltLenOut := 0 }

/-- The general completion (rule R83), which is all of a normal completion (rule R206): what the start cleared stays
cleared (log 22). -/
def State.complete (s : State) : State := { s with status := s.status.complete }

/-- `raise EncodingError(code)`, the error completion (rule R205): the cause is recorded and the command completes;
what the rule wrote before stays, nothing is saved and nothing else changes. -/
def State.raise (code : ErrCode) (s : State) : State :=
  { s with status := s.status.setErr.complete, errCode := code }

/-- The true completion of VERIFY (rules R156, R158). -/
def State.acceptVerify (sl : Nat) (s : State) : State :=
  { s with status := s.status.setVok.complete, saltLenOut := BitVec.ofNat 32 sl, work := [] }

/-- The false completion of VERIFY, the same whichever check failed (rules R157, R158). -/
def State.rejectVerify (s : State) : State := s.clearWork.complete

/-! ### The mask generator's counter -/

/-- `I2OSP4(i)`: 4 bytes, most significant first (rule R101). PRESUMED: the spec's default from general knowledge,
93_implementation_defined.md G1 (log 4). -/
def i2osp4 (i : Nat) : List Byte :=
  [BitVec.ofNat 8 (i / 2 ^ 24), BitVec.ofNat 8 (i / 2 ^ 16), BitVec.ofNat 8 (i / 2 ^ 8), BitVec.ofNat 8 i]

/-- The collaborators of the machine: uninterpreted `Hash` and `Rng`, the default `MGF_CTR`. -/
def collab : Collab := { hash := Config.hash, ctr := i2osp4, rng := Config.rng }

/-- `Hash(m)` of an instance with output length `hlen`, as bytes (rule R8). -/
def hashBytes (c : Collab) (hlen : Nat) (m : List Byte) : List Byte := (c.hash hlen m).toList

end Sys2Proof.Machine
end

