-- ==== Sys2Proof/Machine/Operands.lean ====
section
/-! DEFINITION. Sys2Proof/Machine/Operands.lean: the operand forms of the commands (30_encoding.md rule R86): a
length register read as a natural number, and the bytes of the matching buffer from index 0. -/

namespace Sys2Proof.Machine

/-- `digest`, `expected_digest` and the seed of MASK: `DIGEST[0 .. DIGEST_LEN)`. -/
def State.digestOperand (s : State) : List Byte := s.buf .digest s.digestLen.toNat

/-- `salt`: `SALT[0 .. SALT_LEN)`. -/
def State.saltOperand (s : State) : List Byte := s.buf .salt s.saltLen.toNat

/-- `candidate` and the target of MASK: `EM[0 .. EM_LEN)`. -/
def State.emOperand (s : State) : List Byte := s.buf .em s.emLen.toNat

/-- The `bytes` of `update`: `MSG[0 .. MSG_LEN)`. -/
def State.msgOperand (s : State) : List Byte := s.buf .msg s.msgLen.toNat

/-- `output_length` and `key_bytes`: `ceil(BITS / 8)` (rules R121, R141). -/
def State.blockLen (s : State) : Nat := ceil8 s.bits.toNat

/-- `top_bits`: `8·ceil(BITS/8) − BITS`, 0 to 7 (rules R128, R148). -/
def State.topBits (s : State) : Nat := 8 * s.blockLen - s.bits.toNat

/-- The length of the DB region: `ceil(BITS/8) − HLEN − 1` (rules R126, R149). -/
def State.dbLen (s : State) : Nat := s.blockLen - s.params.hlen - 1

/-- `CFG.REQ_SALT` (rule R32). -/
def State.reqSalt (s : State) : Bool := s.cfg.getLsbD 0

end Sys2Proof.Machine
end

