-- ==== Sys2Proof/Machine/Mask.lean ====
section
/-! DEFINITION. Sys2Proof/Machine/Mask.lean: the mask generator, the XOR masker and command MASK
(40_mask_generator.md). -/

namespace Sys2Proof.Machine

/-- `k` blocks of the mask, from counter `i` on: `Hash(seed ∥ MGF_CTR(i)) ∥ Hash(seed ∥ MGF_CTR(i + 1)) ∥ …` (rule R100). -/
def mgfBlocks (c : Collab) (hlen : Nat) (seed : List Byte) (i : Nat) : Nat → List Byte
  | 0 => []
  | k + 1 => hashBytes c hlen (seed ++ c.ctr i) ++ mgfBlocks c hlen seed (i + 1) k

/-- `MGF(seed, n)`: the first `n` bytes of the blocks; the loop runs `ceil(n / HLEN)` times (rule R100). -/
def mgf (c : Collab) (hlen : Nat) (seed : List Byte) (n : Nat) : List Byte :=
  (mgfBlocks c hlen seed 0 ((n + hlen - 1) / hlen)).take n

/-- `s XOR t`, bytewise (rule R15). -/
def xorBytes (s t : List Byte) : List Byte := List.zipWith (fun a b => a ^^^ b) s t

/-- `XorMask(buf, seed)` (rule R103). -/
def xorMask (c : Collab) (hlen : Nat) (buf seed : List Byte) : List Byte :=
  xorBytes buf (mgf c hlen seed buf.length)

/-- MASK (rules R105, R106). -/
def maskCommand (c : Collab) (s : State) : State :=
  if s.params.dcap < s.digestLen.toNat ∨ s.params.emax < s.emLen.toNat then s.raise .capacity
  else (s.storeBuf .em (xorMask c s.params.hlen s.emOperand s.digestOperand)).complete

/-- The meaning of `mask`. -/
def execMask (s : State) : Host.Outcome State Fault Refusal := .next (maskCommand collab s)

end Sys2Proof.Machine
end

