-- ==== Sys2Proof/Machine/Encode.lean ====
section
/-! DEFINITION. Sys2Proof/Machine/Encode.lean: the layout formatter and command ENCODE (41_encode.md). -/

namespace Sys2Proof.Machine

/-- `0x00^8 ∥ digest ∥ salt`, what `H` is the hash of (rules R125, R153). -/
def hashInput (digest salt : List Byte) : List Byte := List.replicate 8 0x00 ++ digest ++ salt

/-- The unmasked DB of length `dbl`: zero padding, the marker `0x01`, the salt (rule R126). -/
def dataBlock (dbl : Nat) (salt : List Byte) : List Byte :=
  List.replicate (dbl - salt.length - 1) 0x00 ++ 0x01 :: salt

/-- Clear the top `t` bits of byte 0 (rules R128, R150). -/
def clearTop (t : Nat) : List Byte → List Byte
  | [] => []
  | b :: bs => (b &&& topMask t) :: bs

/-- The encoded message of `ol` bytes with `top` unused bits: masked DB, `H`, trailer (rules R125 to R129). -/
def encodeBlock (c : Collab) (hlen ol top : Nat) (digest salt : List Byte) : List Byte :=
  let h := hashBytes c hlen (hashInput digest salt)
  clearTop top (xorMask c hlen (dataBlock (ol - hlen - 1) salt) h) ++ h ++ [0xBC]

/-- The encoded message of ENCODE's operands. -/
def State.encodedMessage (c : Collab) (s : State) : List Byte :=
  encodeBlock c s.params.hlen s.blockLen s.topBits s.digestOperand s.saltOperand

/-- ENCODE's preconditions hold and its operands fit (rules R122, R123, R124). -/
abbrev State.EncodeReady (s : State) : Prop :=
  s.digestLen.toNat = s.params.hlen ∧
  8 * s.params.hlen + 8 * s.saltLen.toNat + 9 ≤ s.bits.toNat ∧
  s.blockLen ≤ s.params.emax ∧ s.saltLen.toNat ≤ s.params.scap

/-- ENCODE (rule R121): the preconditions in their order (rules R122 to R124), the block, the exact-length check
(rule R130), the results (rule R131). -/
def encodeCommand (c : Collab) (s : State) : State :=
  if s.digestLen.toNat ≠ s.params.hlen then s.raise .digestLen
  else if s.bits.toNat < 8 * s.params.hlen + 8 * s.saltLen.toNat + 9 then s.raise .outputBits
  else if s.params.emax < s.blockLen ∨ s.params.scap < s.saltLen.toNat then s.raise .capacity
  else if (s.encodedMessage c).length ≠ s.blockLen then s.raise .invariant
  else ((s.storeBuf .em (s.encodedMessage c)).setEmLen s.blockLen).complete

/-- The meaning of `encode`. -/
def execEncode (s : State) : Host.Outcome State Fault Refusal := .next (encodeCommand collab s)

end Sys2Proof.Machine
end

