-- ==== Sys2Proof/Machine/Verify.lean ====
section
/-! DEFINITION. Sys2Proof/Machine/Verify.lean: the unmasking pipeline, the layout validator, the constant-time
comparator and command VERIFY (42_verify.md). The padded block lives in `W` (`State.work`), as rule R141 writes it. -/

namespace Sys2Proof.Machine

/-- `CtEqual(a, b)`: all byte pairs are examined and their differences accumulated, no early exit (rule R154). -/
def ctEqual (a b : List Byte) : Bool :=
  (xorBytes a b).foldl (fun acc d => acc ||| d) 0 == 0

/-- The marker scan (rule R151): the index of the first non-zero byte if that byte is `0x01`, else none. -/
def scanMarker : List Byte → Option Nat
  | [] => none
  | b :: bs => if b = 0x00 then (scanMarker bs).map (· + 1) else if b = 0x01 then some 0 else none

/-- Checks 1 to 4 and the hardware's capacity check, in their order (rules R142 to R146). -/
def State.candidateAdmitted (s : State) : Bool :=
  decide (8 * s.params.hlen + 9 ≤ s.bits.toNat) &&
  decide (s.digestLen.toNat = s.params.hlen) &&
  decide (1 < s.emLen.toNat ∧ s.emLen.toNat ≤ s.blockLen) &&
  decide (s.blockLen ≤ s.params.emax) &&
  s.bufByte .em (s.emLen.toNat - 1) == 0xBC

/-- `W[0 .. kB) <- 0x00^(kB − n) ∥ EM[0 .. n)` (rule R147). -/
def State.padCandidate (s : State) : State :=
  { s with work := s.work.writeBytes 0 (List.replicate (s.blockLen - s.emLen.toNat) 0x00 ++ s.emOperand) }

/-- `H`: the `HLEN` bytes of `W` before the trailer (rule R149). -/
def State.workHash (s : State) : List Byte := s.work.readBytes s.dbLen s.params.hlen

/-- The DB region of `W` (rule R149). -/
def State.workDb (s : State) : List Byte := s.work.readBytes 0 s.dbLen

/-- Unmask the DB region of `W` in place and clear its unused bits again (rules R149, R150). -/
def State.unmaskWork (c : Collab) (s : State) : State :=
  { s with work := s.work.writeBytes 0 (clearTop s.topBits (xorMask c s.params.hlen s.workDb s.workHash)) }

/-- Checks 7 to 9 on the salt recovered after the marker at index `i` (rules R152 to R155). -/
def State.judgeSalt (c : Collab) (i : Nat) (s : State) : State :=
  let salt := s.work.readBytes (i + 1) (s.dbLen - i - 1)
  if ctEqual s.workHash (hashBytes c s.params.hlen (hashInput s.digestOperand salt)) then
    if s.reqSalt ∧ salt.length ≠ s.cfgSaltLen.toNat then s.rejectVerify
    else s.acceptVerify salt.length
  else s.rejectVerify

/-- Check 6 on the unmasked DB, then the rest (rule R151). -/
def State.judgeLayout (c : Collab) (s : State) : State :=
  match scanMarker s.workDb with
  | none => s.rejectVerify
  | some i => s.judgeSalt c i

/-- VERIFY (rule R141): any failing check ends in the one false completion. -/
def verifyCommand (c : Collab) (s : State) : State :=
  if s.candidateAdmitted then
    let p := s.padCandidate
    if 8 - p.topBits < sigbits (p.work.read 0) then p.rejectVerify
    else (p.unmaskWork c).judgeLayout c
  else s.rejectVerify

/-- The meaning of `verify`. -/
def execVerify (s : State) : Host.Outcome State Fault Refusal := .next (verifyCommand collab s)

end Sys2Proof.Machine
end

