-- ==== Sys2Proof/Machine/Wrapper.lean ====
section
/-! DEFINITION. Sys2Proof/Machine/Wrapper.lean: the optional front-end's commands UPDATE, FINALIZE and ENCODE_RND
(43_wrapper.md). When `VARIANT = NONE` each of them is an illegal command (30_encoding.md rule R84); the decoder
rejects its word then, and the meanings take the same completion (log 16). -/

namespace Sys2Proof.Machine

/-- A wrapper command: itself when the wrapper is present, else the illegal command of rule R84. -/
def State.whenWrapped (s : State) (t : State) : State :=
  if s.params.variant = .none then s.raise .illegalCmd else t

/-- UPDATE (rules R171, R172). -/
def updateCommand (s : State) : State :=
  if s.params.mcap < s.msgLen.toNat then s.raise .capacity
  else (s.setAcc (s.acc ++ s.msgOperand) true).complete

/-- `DIGEST[0 .. len(d)) <- d`, `REG.DIGEST_LEN <- HLEN` (rule R174). -/
def State.deliverDigest (d : List Byte) (s : State) : State :=
  (s.storeBuf .digest d).setDigestLen s.params.hlen

/-- FINALIZE (rules R174 to R176): the accumulator is drained first, then the variant's own rule runs on what it held. -/
def finalizeCommand (c : Collab) (s : State) : State :=
  let drained := s.setAcc [] false
  match s.params.variant with
  | .none => s.raise .illegalCmd
  | .hashing => (drained.deliverDigest (hashBytes c s.params.hlen s.acc)).complete
  | .raw => if s.acc.length ≠ s.params.hlen then drained.raise .rawLen else (drained.deliverDigest s.acc).complete

/-- The draw of ENCODE_RND: `SALT[0 .. cs) <- Rng(cs)`, `REG.SALT_LEN <- cs` (rule R180). -/
def State.drawSalt (c : Collab) (s : State) : State :=
  let drawn := (c.rng s.rngDraws s.cfgSaltLen.toNat).toList
  { ((s.storeBuf .salt drawn).setSaltLen s.cfgSaltLen) with rngDraws := s.rngDraws + 1 }

/-- ENCODE_RND (rules R180, R181): the capacity of the draw first, then the draw, then ENCODE on the state so updated. -/
def encodeRndCommand (c : Collab) (s : State) : State :=
  if s.params.scap < s.cfgSaltLen.toNat then s.raise .capacity
  else encodeCommand c (s.drawSalt c)

/-- The meaning of `update`. -/
def execUpdate (s : State) : Host.Outcome State Fault Refusal := .next (s.whenWrapped (updateCommand s))

/-- The meaning of `finalize`. -/
def execFinalize (s : State) : Host.Outcome State Fault Refusal := .next (s.whenWrapped (finalizeCommand collab s))

/-- The meaning of `encodeRnd`. -/
def execEncodeRnd (s : State) : Host.Outcome State Fault Refusal := .next (s.whenWrapped (encodeRndCommand collab s))

end Sys2Proof.Machine
end

