-- ==== Sys2Proof/Machine/Dispatch.lean ====
section
/-! DEFINITION. Sys2Proof/Machine/Dispatch.lean: the completion step of each command (30_encoding.md rule R83), one
arm per row of the opcode table. -/

namespace Sys2Proof.Machine

/-- The state changes of one command, applied to the state as it stood at command start (rules R73, R83). -/
def exec (i : Instr) (s : State) : Host.Outcome State Fault Refusal :=
  match i with
  | .mask => Sys2Proof.Machine.execMask s
  | .encode => Sys2Proof.Machine.execEncode s
  | .verify => Sys2Proof.Machine.execVerify s
  | .update => Sys2Proof.Machine.execUpdate s
  | .finalize => Sys2Proof.Machine.execFinalize s
  | .encodeRnd => Sys2Proof.Machine.execEncodeRnd s

end Sys2Proof.Machine
end

