-- ==== Sys2Proof/Machine/Sequencer.lean ====
section
/-! DEFINITION. Sys2Proof/Machine/Sequencer.lean: the completion step and the core's turn (30_encoding.md rules R83, R84). -/

namespace Sys2Proof.Machine

/-- The completion step: the latched word selects the command's own rule or the illegal-command rule, before any
operand is looked at (rules R83, R84, R207). -/
def State.completion (s : State) : Host.Outcome State Fault Refusal :=
  match decode s.params.variant s.opLatch with
  | .ok i => exec i s
  | .error _ => .next (s.raise .illegalCmd)

/-- The core's turn: a command in progress completes; an idle core changes nothing (rules R73, R83). -/
def State.coreTurn (s : State) : Host.Outcome State Fault Refusal :=
  if s.status.busy then s.completion else .next s

/-- Command `i`, run on this state, writes the length register `r`: what rule R39 marks w* on success only, `SALT_LEN` at
the draw (rules R180, R181), `ACC_LEN` with `ACC` (rules R171, R174). -/
def State.writesReg (i : Instr) (r : Reg) (s : State) : Bool :=
  match i with
  | .mask => false
  | .encode => r == .emLen && decide s.EncodeReady
  | .verify => false
  | .update => r == .accLen && decide (s.msgLen.toNat ≤ s.params.mcap)
  | .finalize =>
    r == .accLen || r == .digestLen && decide (s.params.variant = .hashing ∨ s.acc.length = s.params.hlen)
  | .encodeRnd =>
    decide (s.cfgSaltLen.toNat ≤ s.params.scap) &&
      (r == .saltLen || r == .emLen && decide (s.drawSalt collab).EncodeReady)

/-- The command in progress will write register `r` (rule R242). -/
def State.writePending (r : Reg) (s : State) : Bool :=
  match decode s.params.variant s.opLatch with
  | .ok i => s.writesReg i r
  | .error _ => false

end Sys2Proof.Machine
end

