-- ==== Sys2Proof/Machine/Bus.lean ====
section
/-! DEFINITION. Sys2Proof/Machine/Bus.lean: the host's bus (20_memory.md), the register map (10_state.md rule R23) and
what the host sees while a command runs (70_reset_and_hazards.md rules R241, R242). -/

namespace Sys2Proof.Machine

/-- The byte offset of a register (rule R23). -/
def Reg.offset : Reg → Nat
  | .cmd => 0x000
  | .status => 0x004
  | .errcode => 0x008
  | .bits => 0x00C
  | .digestLen => 0x010
  | .saltLen => 0x014
  | .emLen => 0x018
  | .cfg => 0x01C
  | .cfgSaltLen => 0x020
  | .saltLenOut => 0x024
  | .msgLen => 0x028
  | .accLen => 0x02C
  | .paramHlen => 0x030
  | .paramEmax => 0x034
  | .paramScap => 0x038
  | .paramDcap => 0x03C
  | .paramMcap => 0x040
  | .paramVariant => 0x044
  | .version => 0x048

/-- The rows of the map of rule R23, in its order. -/
def Reg.all : List Reg :=
  [.cmd, .status, .errcode, .bits, .digestLen, .saltLen, .emLen, .cfg, .cfgSaltLen, .saltLenOut, .msgLen, .accLen,
   .paramHlen, .paramEmax, .paramScap, .paramDcap, .paramMcap, .paramVariant, .version]

/-- Column "present" of rule R23. -/
def Reg.present (v : Variant) : Reg → Bool
  | .msgLen | .accLen => v != .none
  | _ => true

/-- The register at an offset; none at a reserved one (rule R23). -/
def regAt (v : Variant) (off : Nat) : Option Reg := Reg.all.find? (fun r => r.offset == off && r.present v)

/-- What a register holds, as the host reads it (rules R23 to R36). `CMD` reads 0. -/
def State.regValue (s : State) : Reg → Word
  | .cmd => 0
  | .status => s.status.word
  | .errcode => s.errCode.word
  | .bits => s.bits
  | .digestLen => s.digestLen
  | .saltLen => s.saltLen
  | .emLen => s.emLen
  | .cfg => s.cfg
  | .cfgSaltLen => s.cfgSaltLen
  | .saltLenOut => s.saltLenOut
  | .msgLen => s.msgLen
  | .accLen => s.accLen
  | .paramHlen => BitVec.ofNat 32 s.params.hlen
  | .paramEmax => BitVec.ofNat 32 s.params.emax
  | .paramScap => BitVec.ofNat 32 s.params.scap
  | .paramDcap => BitVec.ofNat 32 s.params.dcap
  | .paramMcap => BitVec.ofNat 32 (Buffer.cap s.params .msg)
  | .paramVariant => variantWord s.params.variant
  | .version => 1

/-- A write of a register while idle (rules R23, R24, R32): `CMD` starts a command, `CFG` keeps bit 0 only, read-only
registers ignore it. -/
def State.writeReg (r : Reg) (v : Word) (s : State) : State :=
  match r with
  | .cmd => s.startCommand v
  | .bits => { s with bits := v }
  | .digestLen => { s with digestLen := v }
  | .saltLen => { s with saltLen := v }
  | .emLen => { s with emLen := v }
  | .cfg => { s with cfg := v &&& 1 }
  | .cfgSaltLen => { s with cfgSaltLen := v }
  | .msgLen => { s with msgLen := v }
  | .status | .errcode | .saltLenOut | .accLen | .paramHlen | .paramEmax | .paramScap | .paramDcap | .paramMcap
  | .paramVariant | .version => s

/-- Rule R62 (a): an aligned 4-byte access in the register region. -/
def wordAccess (addr n : Nat) : Bool := n == 4 && addr % 4 == 0 && decide (addr < 0x100)

/-- Rule R62 (b): a 1-byte access in the window region. -/
def byteAccess (addr n : Nat) : Bool := n == 1 && decide (0x100 ≤ addr) && decide (addr < 0x3000)

/-- The bus returns `v` to the host. -/
def State.answer (v : Word) (s : State) : State := { s with busData := v }

/-- A read whose value the spec leaves open while busy: the next one draws afresh. -/
def State.countBusyRead (s : State) : State := { s with busyReads := s.busyReads + 1 }

/-- A legal read of a register (rules R63, R242): any value of a register that the command in progress will
write (93_implementation_defined.md U7; log 7). -/
def State.readReg (r : Reg) (s : State) : State :=
  if s.status.busy && s.writePending r then (s.answer (Config.busyWord s.busyReads)).countBusyRead
  else s.answer (s.regValue r)

/-- A legal read of a window byte (rules R64, R242): 0 where no buffer byte exists, any byte while busy. -/
def State.readWindow (a : Nat) (s : State) : State :=
  if bufferByte s.params a then
    if s.status.busy then (s.answer ((Config.busyByte s.busyReads).setWidth 32)).countBusyRead
    else s.answer ((s.mem.read a).setWidth 32)
  else s.answer 0

/-- `MemRead(addr, n)`; an illegal access returns 0 (rules R63, R64, R66). -/
def State.busRead (addr n : Nat) (s : State) : State :=
  if wordAccess addr n then
    match regAt s.params.variant addr with
    | some r => s.readReg r
    | none => s.answer 0
  else if byteAccess addr n then s.readWindow addr
  else s.answer 0

/-- A write of a window byte while idle (rule R64): ignored where no buffer byte exists. -/
def State.writeWindow (a : Nat) (v : Byte) (s : State) : State :=
  if bufferByte s.params a then { s with mem := s.mem.write a v } else s

/-- `MemWrite(addr, n, v)`: lost while busy (rule R241), ignored when illegal (rule R66). -/
def State.busWrite (addr n : Nat) (v : Word) (s : State) : State :=
  if s.status.busy then s
  else if wordAccess addr n then
    match regAt s.params.variant addr with
    | some r => s.writeReg r v
    | none => s
  else if byteAccess addr n then s.writeWindow addr (v.setWidth 8)
  else s

/-- One bus transaction, atomic (rules R60, R65). -/
def State.busStep (op : BusOp) (s : State) : State :=
  match op with
  | .read addr n => s.busRead addr n
  | .write addr n v => s.busWrite addr n v

/-- The reset input (rules R230, R231): the reset state of the same instance, a command in progress abandoned. The
host's side (the schedule, what it last read) and the counters of the free values go on (log 21). -/
def State.hardReset (s : State) : State :=
  { State.resetOf s.params with
    events := s.events, busData := s.busData, rngDraws := s.rngDraws, busyReads := s.busyReads }

/-- The schedule without the entry just taken. -/
def State.withEvents (es : List Event) (s : State) : State := { s with events := es }

/-- One entry of the schedule (log 8). -/
def State.takeEvent (e : Event) (s : State) : Host.Outcome State Fault Refusal :=
  match e with
  | .bus op => .next (s.busStep op)
  | .core => s.coreTurn
  | .reset => .next s.hardReset

/-- The command word `w` as if the host had just written it to `CMD`, and the core moving next (log 11). -/
def State.placeCommand (w : Word) (s : State) : State := (s.startCommand w).withEvents (.core :: s.events)

end Sys2Proof.Machine
end

