-- ==== Sys2Proof/Machine/Step.lean ====
section
/-! DEFINITION. Sys2Proof/Machine/Step.lean: one step of the machine: whoever is first in the schedule moves, and the
core moves when the schedule is empty (30_encoding.md rules R82, R83; 70_reset_and_hazards.md rule R250; log 8). -/

namespace Sys2Proof.Machine

/-- One step. -/
def step (s : State) : Host.Outcome State Fault Refusal :=
  match s.events with
  | [] => s.coreTurn
  | e :: es => (s.withEvents es).takeEvent e

/-- The state in which the next step runs the command word `w`: a command starts by a write to `CMD`, so the word is
latched by the command-start rule and the core is scheduled next (log 11). -/
def State.withFetchWord (s : State) (nbits w : Nat) : State := s.placeCommand (BitVec.ofNat 32 (w % 2 ^ nbits))

end Sys2Proof.Machine
end

