-- ==== Sys2Proof/Safety.lean ====
section
/-! DEFINITION. Sys2Proof/Safety.lean: what claims are stated in: the invariant every step keeps, when a command is in
progress, when ENCODE runs, and when VERIFY accepts, each in the spec's own terms. -/

namespace Sys2Proof.Machine

/-- The invariants of `STATUS`, `ERRCODE` and `SALT_LEN_OUT` (rules R25, R26, R34). -/
abbrev State.FlagsConsistent (s : State) : Prop :=
  ¬ (s.status.busy = true ∧ s.status.done = true) ∧
  (s.status.err = true → s.status.done = true ∧ s.status.vok = false) ∧
  (s.status.vok = true → s.status.done = true ∧ s.status.err = false) ∧
  (s.status.err = false ↔ s.errCode = .none) ∧
  (s.status.vok = false → s.saltLenOut = 0)

/-- Bits 31:1 of `CFG` are hard-wired 0 (rule R32). -/
abbrev State.ReservedClear (s : State) : Prop := s.cfg.extractLsb' 1 31 = 0

/-- The byte store is in canonical form and lists bytes of existing buffers only, and `W` is zero between commands
(rules R40, R51). -/
abbrev State.MemoryCanonical (s : State) : Prop :=
  s.mem.wf = true ∧ (∀ x ∈ s.mem, bufferByte s.params x.1 = true) ∧ s.work = []

/-- The wrapper's state (rules R25, R35, R178): `ACC_LEN` follows `ACC`, *Idle* means an empty `ACC`, and without a
wrapper none of its state is ever set. -/
abbrev State.WrapperConsistent (s : State) : Prop :=
  s.accLen = accLenOf s.acc ∧ (s.status.accum = false → s.acc = []) ∧
  (s.params.variant = .none → s.status.accum = false ∧ s.msgLen = 0)

/-- The invariant of the core: it holds after reset and every step keeps it. -/
abbrev State.Inv (s : State) : Prop :=
  s.params.Valid ∧ s.FlagsConsistent ∧ s.ReservedClear ∧ s.MemoryCanonical ∧ s.WrapperConsistent

/-- A command has started and not completed: what rule R82 leaves. -/
abbrev State.InProgress (s : State) : Prop :=
  s.status.busy = true ∧ s.status.done = false ∧ s.status.err = false ∧ s.status.vok = false ∧
  s.errCode = .none ∧ s.saltLenOut = 0

/-- The core is the next to move: the schedule is empty or gives it the turn. -/
abbrev State.CoreNext (s : State) : Prop := s.events = [] ∨ s.events.head? = some .core

/-- Command `i`, run on this state, writes the length register `r`: what rule R39 marks w* on success only, `SALT_LEN` at
the draw, `ACC_LEN` by every FINALIZE (rules R131, R171, R174, R180, R181). -/
abbrev State.WritesLength (i : Instr) (r : Reg) (s : State) : Prop :=
  (i = .encode ∧ r = .emLen ∧ s.EncodeReady) ∨
  (i = .update ∧ r = .accLen ∧ s.msgLen.toNat ≤ s.params.mcap) ∨
  (i = .finalize ∧ (r = .accLen ∨
    (r = .digestLen ∧ (s.params.variant = .hashing ∨ s.acc.length = s.params.hlen)))) ∨
  (i = .encodeRnd ∧ s.cfgSaltLen.toNat ≤ s.params.scap ∧ (r = .saltLen ∨
    (r = .emLen ∧ s.digestLen.toNat = s.params.hlen ∧
      8 * s.params.hlen + 8 * s.cfgSaltLen.toNat + 9 ≤ s.bits.toNat ∧ s.blockLen ≤ s.params.emax)))

/-- The state with the entry just taken removed from the schedule. -/
abbrev State.taken (s : State) : State := s.withEvents s.events.tail

/-- The candidate left-padded with zero bytes to `key_bytes` (rule R147). -/
def State.paddedBlock (s : State) : List Byte :=
  List.replicate (s.blockLen - s.emLen.toNat) 0x00 ++ s.emOperand

/-- The `HLEN` bytes of the padded block before its trailer (rule R149). -/
def State.blockHash (s : State) : List Byte := (s.paddedBlock.drop s.dbLen).take s.params.hlen

/-- VERIFY's nine conditions and the capacity check, without loops or working storage, for a recovered salt of `sl`
bytes: the unmasked DB, its unused bits cleared, is exactly zero padding, `0x01`, salt, and the stored hash is the hash
of the expected digest and that salt (rules R142 to R155, R162). -/
def State.Accepts (c : Collab) (s : State) (sl : Nat) : Prop :=
  8 * s.params.hlen + 9 ≤ s.bits.toNat ∧
  s.digestLen.toNat = s.params.hlen ∧
  (1 < s.emLen.toNat ∧ s.emLen.toNat ≤ s.blockLen) ∧
  s.blockLen ≤ s.params.emax ∧
  s.bufByte .em (s.emLen.toNat - 1) = 0xBC ∧
  (s.paddedBlock.headD 0).toNat < 2 ^ (8 - s.topBits) ∧
  ∃ salt : List Byte, salt.length = sl ∧
    clearTop s.topBits (xorMask c s.params.hlen (s.paddedBlock.take s.dbLen) s.blockHash) = dataBlock s.dbLen salt ∧
    s.blockHash = hashBytes c s.params.hlen (hashInput s.digestOperand salt) ∧
    (s.reqSalt = true → sl = s.cfgSaltLen.toNat)

end Sys2Proof.Machine
end

