-- ==== Sys2Proof/Certificates/Slice0/Obligations.lean ====
section
/-! DEFINITION. Sys2Proof/Certificates/Slice0/Obligations.lean: the statements made about the model, for the provers.
`s.events` is the model's schedule (log 8); a statement about `step` says what the first entry of the schedule does.
Results are written field by field, over every state and so over every instance (`s.params`). -/

open Sys2Proof Sys2Proof.Machine

/-! ### Command words -/

/-- Words written out from the table of rule R81, and one illegal word of each kind of rule R84. -/
def Obligations.DecodeKnownWords : Prop :=
  decode .none 0x00000001 = .ok .mask ∧ decode .none 0x00000002 = .ok .encode ∧
  decode .none 0x00000003 = .ok .verify ∧ decode .hashing 0x00000004 = .ok .update ∧
  decode .raw 0x00000005 = .ok .finalize ∧ decode .hashing 0x00000006 = .ok .encodeRnd ∧
  decode .none 0x00000006 = .error .absentWrapper ∧ decode .raw 0x00000000 = .error .reservedOpcode ∧
  decode .hashing 0x80000003 = .error .reservedBits

/-- Of all 2^32 words, exactly the encoding of a command that the instance has decodes to that command (rules R80,
R81, R90). -/
def Obligations.DecodeEncodeExact : Prop :=
  ∀ (v : Variant) (w : Word) (i : Instr), decode v w = .ok i ↔ i.wellFormed v = true ∧ w = encodeWord i

/-- The illegal words are those of rule R84, and no others (rule R85). -/
def Obligations.IllegalWordsExact : Prop :=
  ∀ (v : Variant) (w : Word), (∀ i, decode v w ≠ .ok i) ↔
    (w.toNat / 16 ≠ 0 ∨ w.toNat % 16 = 0 ∨ 7 ≤ w.toNat % 16 ∨ (4 ≤ w.toNat % 16 ∧ v = .none))

/-! ### Steps: start, completion, schedule -/

/-- Rule R83: when the core moves with a command in progress, the step is the completion of the decoded command. -/
def Obligations.StepRunsDecodedCommand : Prop :=
  ∀ (s : State) (i : Instr), s.CoreNext → s.status.busy = true → decode s.params.variant s.opLatch = .ok i →
    step s = exec i s.taken

/-- Rule R82: a write to `CMD` while idle starts a command and changes nothing else. -/
def Obligations.CommandStart : Prop :=
  ∀ (s : State) (v : Word) (es : List Event), s.events = .bus (.write 0x000 4 v) :: es → s.status.busy = false →
    step s = .next { s with
      events := es, opLatch := v, errCode := .none, saltLenOut := 0
      status := { busy := true, done := false, err := false, vok := false, accum := s.status.accum } }

/-- Rule R84: an illegal word starts like any command and completes with `ERR_ILLEGAL_CMD` (4), changing nothing
else. -/
def Obligations.IllegalCommandReported : Prop :=
  ∀ (s : State) (w : Word) (es : List Event), s.events = .bus (.write 0x000 4 w) :: .core :: es →
    s.status.busy = false →
    (w.toNat / 16 ≠ 0 ∨ w.toNat % 16 = 0 ∨ 7 ≤ w.toNat % 16 ∨ (4 ≤ w.toNat % 16 ∧ s.params.variant = .none)) →
    ErrCode.illegalCmd.word = 4 ∧
    ∃ t, step s = .next t ∧ t.status.busy = true ∧
      step t = .next { s with
        events := es, opLatch := w, errCode := .illegalCmd, saltLenOut := 0
        status := { busy := false, done := true, err := true, vok := false, accum := s.status.accum } }

/-- Rule R73: an idle core changes nothing on its own. -/
def Obligations.IdleCoreStill : Prop :=
  ∀ s : State, s.CoreNext → s.status.busy = false → step s = .next s.taken

/-- Rules R73, R83: however many host transactions come while a command runs, its inputs are the state at its start:
when the core's turn comes only what the host read, and the count of undetermined reads, differ (logs 6, 7, 9). -/
def Obligations.CommandInputsFrozen : Prop :=
  ∀ (ops : List BusOp) (s : State) (es : List Event), s.status.busy = true →
    s.events = ops.map Event.bus ++ Event.core :: es →
    ∃ d k, Host.Core.run Sys2Proof.core ops.length s =
      .next { s with events := Event.core :: es, busData := d, busyReads := k }

/-- No step of this machine ends in a fault or a refusal. For errors and illegal commands this is what the spec says
(log 19); that a refused bus access is a step, where the spec also allows a host that is stuck, is the model's choice
(log 13). -/
def Obligations.StepNeverStops : Prop := ∀ s : State, ∃ t, step s = .next t

/-! ### Reset and invariants -/

/-- Rules R54, R230, R231: the reset input gives the reset state from any state, a command in progress or not, for the
same parameters. That the host's side and the counters of the free values go on is the model's choice (log 21). -/
def Obligations.ResetFromAnyState : Prop :=
  ∀ (s : State) (es : List Event), s.events = .reset :: es →
    ∃ t, step s = .next t ∧ t.params = s.params ∧
      t.status = { busy := false, done := false, err := false, vok := false, accum := false } ∧
      t.errCode = .none ∧ t.bits = 0 ∧ t.digestLen = 0 ∧ t.saltLen = 0 ∧ t.emLen = 0 ∧ t.cfg = 0 ∧
      t.cfgSaltLen = 0 ∧ t.saltLenOut = 0 ∧ t.msgLen = 0 ∧ t.accLen = 0 ∧ t.opLatch = 0 ∧ t.acc = [] ∧
      (∀ a, t.mem.read a = 0) ∧ (∀ a, t.work.read a = 0) ∧
      t.events = es ∧ t.busData = s.busData ∧ t.rngDraws = s.rngDraws ∧ t.busyReads = s.busyReads

/-- The invariant holds after reset, for every instance the spec allows, the model's own among them. -/
def Obligations.ResetHasInvariant : Prop := (∀ p : Params, p.Valid → (State.resetOf p).Inv) ∧ State.reset.Inv

/-- Every step keeps the invariant (rules R25, R26, R32, R34, R35, R40, R51, R178). -/
def Obligations.StepKeepsInvariant : Prop := ∀ s t : State, s.Inv → step s = .next t → t.Inv

/-- Rule R232: the parameters cannot be changed at run time. -/
def Obligations.ParametersConstant : Prop := ∀ s t : State, step s = .next t → t.params = s.params

/-- Rule R178: only the completion of UPDATE or FINALIZE, and reset, touch the accumulator, its visible length or the
state bit. -/
def Obligations.AccumulatorOwners : Prop :=
  ∀ s t : State, step s = .next t →
    (t.acc ≠ s.acc ∨ t.accLen ≠ s.accLen ∨ t.status.accum ≠ s.status.accum) →
    s.events.head? = some .reset ∨
    (s.CoreNext ∧ s.status.busy = true ∧
      (decode s.params.variant s.opLatch = .ok .update ∨ decode s.params.variant s.opLatch = .ok .finalize))

/-! ### The host's bus -/

/-- Rule R241: every write while busy is lost. -/
def Obligations.WritesWhileBusyLost : Prop :=
  ∀ (s : State) (a n : Nat) (v : Word) (es : List Event), s.events = .bus (.write a n v) :: es →
    s.status.busy = true → step s = .next { s with events := es }

/-- Rules R62, R66: an access that is neither an aligned word access to the registers nor a byte access to the windows
is refused: a write changes nothing, a read returns 0. That such an access is a step at all is the model's choice
(log 13). -/
def Obligations.IllegalAccessRefused : Prop :=
  ∀ (s : State) (a n : Nat) (es : List Event),
    ¬ ((n = 4 ∧ a % 4 = 0 ∧ a < 0x100) ∨ (n = 1 ∧ 0x100 ≤ a ∧ a < 0x3000)) →
    (∀ v, s.events = .bus (.write a n v) :: es → step s = .next { s with events := es }) ∧
    (s.events = .bus (.read a n) :: es → step s = .next { s with events := es, busData := 0 })

/-- Rules R63, R64, R65: no location has a read side effect: a read changes only what the host received (and the
model's count of undetermined reads; logs 6, 7, 9). -/
def Obligations.ReadsHaveNoSideEffect : Prop :=
  ∀ (s : State) (a n : Nat) (es : List Event), s.events = .bus (.read a n) :: es →
    ∃ d k, step s = .next { s with events := es, busData := d, busyReads := k }

/-- Rule R23: what a word write does at each read/write register while idle; `CFG` keeps bit 0 only (rule R32), and
`MSG_LEN` is reserved without a wrapper (rule R31). -/
def Obligations.RegisterWrites : Prop :=
  ∀ (s : State) (a : Nat) (v : Word) (es : List Event), s.events = .bus (.write a 4 v) :: es →
    s.status.busy = false →
    (a = 0x00C → step s = .next { s with events := es, bits := v }) ∧
    (a = 0x010 → step s = .next { s with events := es, digestLen := v }) ∧
    (a = 0x014 → step s = .next { s with events := es, saltLen := v }) ∧
    (a = 0x018 → step s = .next { s with events := es, emLen := v }) ∧
    (a = 0x01C → step s = .next { s with events := es, cfg := BitVec.ofNat 32 (v.toNat % 2) }) ∧
    (a = 0x020 → step s = .next { s with events := es, cfgSaltLen := v }) ∧
    (a = 0x028 → s.params.variant ≠ .none → step s = .next { s with events := es, msgLen := v }) ∧
    (a = 0x028 → s.params.variant = .none → step s = .next { s with events := es })

/-- Rule R23: a word write to a read-only or reserved register is ignored. -/
def Obligations.ReadOnlyWritesIgnored : Prop :=
  ∀ (s : State) (a : Nat) (v : Word) (es : List Event), s.events = .bus (.write a 4 v) :: es → a % 4 = 0 →
    (a = 0x004 ∨ a = 0x008 ∨ a = 0x024 ∨ (0x02C ≤ a ∧ a < 0x100)) → step s = .next { s with events := es }

/-- Rules R23, R25, R26, R32: what the host reads at a register that no command in progress can be changing, the
parameter registers apart (ParameterReads; BusyRegisterReads has the length registers while busy). `STATUS` and `ERRCODE`
are read bit by bit, reserved bits as 0. -/
def Obligations.RegisterReads : Prop :=
  ∀ (s : State) (a : Nat) (es : List Event), s.events = .bus (.read a 4) :: es →
    ∃ t, step s = .next t ∧
    (a = 0x000 → t.busData = 0) ∧
    (a = 0x004 → t.busData.getLsbD 0 = s.status.busy ∧ t.busData.getLsbD 1 = s.status.done ∧
      t.busData.getLsbD 2 = s.status.err ∧ t.busData.getLsbD 3 = s.status.vok ∧
      t.busData.getLsbD 4 = s.status.accum ∧ ∀ k, 5 ≤ k → t.busData.getLsbD k = false) ∧
    (a = 0x008 → t.busData.toNat = s.errCode.number) ∧
    (a = 0x00C → t.busData = s.bits) ∧ (a = 0x01C → t.busData = s.cfg) ∧ (a = 0x020 → t.busData = s.cfgSaltLen) ∧
    (a = 0x024 → t.busData = s.saltLenOut) ∧
    (a = 0x028 → t.busData = if s.params.variant = .none then 0 else s.msgLen) ∧
    (s.status.busy = false → (a = 0x010 → t.busData = s.digestLen) ∧ (a = 0x014 → t.busData = s.saltLen) ∧
      (a = 0x018 → t.busData = s.emLen) ∧ (a = 0x02C → s.params.variant ≠ .none → t.busData = s.accLen)) ∧
    (a = 0x02C → s.params.variant = .none → t.busData = 0) ∧
    (0x04C ≤ a → t.busData = 0)

/-- Rule R36: the parameter registers read the parameters of the instance, `VERSION` reads 1. -/
def Obligations.ParameterReads : Prop :=
  ∀ (s : State) (a : Nat) (es : List Event), s.params.Valid → s.events = .bus (.read a 4) :: es →
    ∃ t, step s = .next t ∧
    (a = 0x030 → t.busData.toNat = s.params.hlen) ∧ (a = 0x034 → t.busData.toNat = s.params.emax) ∧
    (a = 0x038 → t.busData.toNat = s.params.scap) ∧ (a = 0x03C → t.busData.toNat = s.params.dcap) ∧
    (a = 0x040 → t.busData.toNat = if s.params.variant = .none then 0 else s.params.mcap) ∧
    (a = 0x044 → t.busData.toNat = match s.params.variant with | .none => 0 | .hashing => 1 | .raw => 2) ∧
    (a = 0x048 → t.busData = 1)

/-- Rule R64: while idle, a byte written to a buffer is the byte read next, and every other byte and all other state
is as before. A value wider than a byte is cut to its low 8 bits (log 14). -/
def Obligations.BufferWriteThenRead : Prop :=
  ∀ (s : State) (b : Buffer) (i : Nat) (v : Word) (es : List Event), s.params.Valid → i < Buffer.cap s.params b →
    s.status.busy = false → s.events = .bus (.write (b.base + i) 1 v) :: .bus (.read (b.base + i) 1) :: es →
    ∃ t u, step s = .next t ∧ t = { s with events := t.events, mem := t.mem } ∧
      t.bufByte b i = v.setWidth 8 ∧ (∀ a, a ≠ b.base + i → t.mem.read a = s.mem.read a) ∧
      step t = .next u ∧ u.busData = (v.setWidth 8).setWidth 32

/-- Rules R40, R64: an offset of the window region that is no byte of a buffer reads 0 and ignores writes. -/
def Obligations.ReservedWindow : Prop :=
  ∀ (s : State) (a : Nat) (es : List Event), 0x100 ≤ a → a < 0x3000 →
    (∀ b : Buffer, a < b.base ∨ b.base + Buffer.cap s.params b ≤ a) →
    (∀ v, s.events = .bus (.write a 1 v) :: es → step s = .next { s with events := es }) ∧
    (s.events = .bus (.read a 1) :: es → step s = .next { s with events := es, busData := 0 })

/-- Rules R64, R242: a buffer byte read while busy is a free value, a fresh one at each such read (log 6). -/
def Obligations.BusyBufferReadFree : Prop :=
  ∀ (s : State) (b : Buffer) (i : Nat) (es : List Event), s.params.Valid → i < Buffer.cap s.params b →
    s.status.busy = true → s.events = .bus (.read (b.base + i) 1) :: es →
    step s = .next { s with
      events := es, busData := (Config.busyByte s.busyReads).setWidth 32, busyReads := s.busyReads + 1 }

/-- Rule R242: while busy, a length register that the command in progress will write reads as any value (log 7), a fresh
free value at each such read; every other register reads as it is, and the command leaves such a length register as it is:
so a command that will fail leaves its results readable at their values from the start. -/
def Obligations.BusyRegisterReads : Prop :=
  ∀ (s : State) (r : Reg) (es : List Event), r.present s.params.variant = true →
    s.status.busy = true → s.events = .bus (.read r.offset 4) :: es →
    ((∃ i, decode s.params.variant s.opLatch = .ok i ∧ s.WritesLength i r) →
      step s = .next { s with
        events := es, busData := Config.busyWord s.busyReads, busyReads := s.busyReads + 1 }) ∧
    ((∀ i, decode s.params.variant s.opLatch = .ok i → ¬ s.WritesLength i r) →
      step s = .next { s with events := es, busData := s.regValue r } ∧
      (r = .emLen ∨ r = .digestLen ∨ r = .saltLen ∨ r = .accLen →
        ∃ u, s.taken.completion = .next u ∧ u.regValue r = s.regValue r))

/-! ### What every command leaves alone -/

/-- Rules R27, R31, R32, R33: every command completes, and none writes a register that only the host writes, the latched
word, the parameters, or the host's side of the bus. -/
def Obligations.CommandsCompleteAndSpareHostState : Prop :=
  ∀ (i : Instr) (s : State), ∃ t, exec i s = .next t ∧ t.status.busy = false ∧ t.status.done = true ∧
    t.params = s.params ∧ t.bits = s.bits ∧ t.cfg = s.cfg ∧ t.cfgSaltLen = s.cfgSaltLen ∧ t.msgLen = s.msgLen ∧
    t.opLatch = s.opLatch ∧ t.events = s.events ∧ t.busData = s.busData ∧ t.busyReads = s.busyReads

/-- The write columns of rule R39: which registers and which buffers each command can change. `rngDraws` is the
model's own count of draws (log 5). -/
def Obligations.CommandFrames : Prop :=
  ∀ (i : Instr) (s : State), s.params.Valid → ∃ t, exec i s = .next t ∧
    (i ≠ .finalize → t.digestLen = s.digestLen ∧ ∀ k, k < s.params.dcap → t.bufByte .digest k = s.bufByte .digest k) ∧
    (i ≠ .encodeRnd → t.saltLen = s.saltLen ∧ t.rngDraws = s.rngDraws ∧
      ∀ k, k < s.params.scap → t.bufByte .salt k = s.bufByte .salt k) ∧
    (i ≠ .encode → i ≠ .encodeRnd → t.emLen = s.emLen) ∧
    (i = .verify ∨ i = .update ∨ i = .finalize → ∀ k, k < s.params.emax → t.bufByte .em k = s.bufByte .em k) ∧
    (∀ k, k < s.params.mcap → t.bufByte .msg k = s.bufByte .msg k) ∧
    (i ≠ .verify → t.work = s.work ∧ t.saltLenOut = s.saltLenOut ∧ t.status.vok = s.status.vok) ∧
    (i ≠ .update → i ≠ .finalize → t.acc = s.acc ∧ t.accLen = s.accLen ∧ t.status.accum = s.status.accum)

/-- Rules R41, R205: a command that ends with an encoding error changes no buffer, except that ENCODE_RND may have
drawn its salt. -/
def Obligations.ErrorsChangeNoBuffer : Prop :=
  ∀ (i : Instr) (s t : State), s.params.Valid → s.status.err = false → exec i s = .next t → t.status.err = true →
    (i ≠ .encodeRnd → t.mem = s.mem) ∧
    (i = .encodeRnd → ∀ a, (a < 0x1000 ∨ 0x1000 + s.cfgSaltLen.toNat ≤ a) → t.mem.read a = s.mem.read a)

/-- Rule R202: how each command that the instance has can end. `ERR_INVARIANT` is unreachable (rule R130), codes 7 to 15
do not exist. -/
def Obligations.CompletionKinds : Prop :=
  ∀ (i : Instr) (s : State), s.params.Valid → i.wellFormed s.params.variant = true → s.InProgress →
    ∃ t, exec i s = .next t ∧ (t.status.err = false ↔ t.errCode = .none) ∧
    (i = .mask → t.errCode = .none ∨ t.errCode = .capacity) ∧
    (i = .encode ∨ i = .encodeRnd → t.errCode = .none ∨ t.errCode = .digestLen ∨ t.errCode = .outputBits ∨
      t.errCode = .capacity) ∧
    (i = .verify → t.errCode = .none) ∧
    (i = .update → t.errCode = .none ∨ t.errCode = .capacity) ∧
    (i = .finalize → t.errCode = .none ∨ (s.params.variant = .raw ∧ t.errCode = .rawLen))

/-! ### Mask generator and MASK -/

/-- Rule R100: `MGF(seed, n)` has length `n` and its byte `j` is byte `j mod HLEN` of `Hash(seed ∥ MGF_CTR(j div HLEN))`,
for any hash and any counter encoding. -/
def Obligations.MgfIsHashStream : Prop :=
  ∀ (c : Collab) (hlen : Nat) (seed : List Byte) (n : Nat), 1 ≤ hlen →
    (mgf c hlen seed n).length = n ∧
    ∀ j, j < n → (mgf c hlen seed n)[j]? = (c.hash hlen (seed ++ c.ctr (j / hlen))).toList[j % hlen]?

/-- Rule R102 (c): a shorter mask is a beginning of a longer one. -/
def Obligations.MgfShorterIsBeginning : Prop :=
  ∀ (c : Collab) (hlen : Nat) (seed : List Byte) (n m : Nat), 1 ≤ hlen → n ≤ m →
    mgf c hlen seed n = (mgf c hlen seed m).take n

/-- Rules R103, R105: MASK xors `EM[0 .. EM_LEN)` with the mask of the seed, byte by byte, completes normally, and
changes no other byte of memory and no other state. The mask is made with the default `MGF_CTR` (log 4). -/
def Obligations.MaskResult : Prop :=
  ∀ s : State, s.params.Valid → s.digestLen.toNat ≤ s.params.dcap → s.emLen.toNat ≤ s.params.emax →
    ∃ t, exec .mask s = .next t ∧
      (∀ j, j < s.emLen.toNat → t.bufByte .em j =
        s.bufByte .em j ^^^ (mgf collab s.params.hlen s.digestOperand s.emLen.toNat).getD j 0) ∧
      (∀ a, (a < 0x2000 ∨ 0x2000 + s.emLen.toNat ≤ a) → t.mem.read a = s.mem.read a) ∧
      t = { s with mem := t.mem, status := { s.status with busy := false, done := true } }

/-- Rule R106: an operand that does not fit its buffer ends MASK with `ERR_CAPACITY` (5) and changes no buffer. -/
def Obligations.MaskCapacity : Prop :=
  ∀ s : State, (s.params.dcap < s.digestLen.toNat ∨ s.params.emax < s.emLen.toNat) →
    exec .mask s = .next { s with
      errCode := .capacity, status := { s.status with busy := false, done := true, err := true } } ∧
    ErrCode.capacity.number = 5

/-- Rules R103, R107 (d): MASK run twice with the same operands restores the memory. -/
def Obligations.MaskTwiceRestores : Prop :=
  ∀ (s : State) (w : Word), s.params.Valid → s.mem.wf = true → s.digestLen.toNat ≤ s.params.dcap →
    s.emLen.toNat ≤ s.params.emax →
    ∃ t u, exec .mask s = .next t ∧ exec .mask (t.startCommand w) = .next u ∧ u.mem = s.mem

/-! ### ENCODE -/

/-- Rule R122: a digest length other than `HLEN` ends ENCODE with `ERR_DIGEST_LEN` (1), whatever else holds. -/
def Obligations.EncodeDigestLength : Prop :=
  ∀ s : State, s.digestLen.toNat ≠ s.params.hlen →
    exec .encode s = .next { s with
      errCode := .digestLen, status := { s.status with busy := false, done := true, err := true } } ∧
    ErrCode.digestLen.number = 1

/-- Rule R123: with too few bits ENCODE ends with `ERR_OUTPUT_BITS` (2); the bound is a sum of naturals and never wraps;
with exactly the minimum, and operands that fit, it succeeds. -/
def Obligations.EncodeOutputBits : Prop :=
  ∀ s : State, s.digestLen.toNat = s.params.hlen →
    (s.bits.toNat < 8 * s.params.hlen + 8 * s.saltLen.toNat + 9 →
      exec .encode s = .next { s with
        errCode := .outputBits, status := { s.status with busy := false, done := true, err := true } } ∧
      ErrCode.outputBits.number = 2) ∧
    (s.params.Valid → s.bits.toNat = 8 * s.params.hlen + 8 * s.saltLen.toNat + 9 →
      (s.bits.toNat + 7) / 8 ≤ s.params.emax → s.saltLen.toNat ≤ s.params.scap →
      ∃ t, exec .encode s = .next t ∧ t.status = { s.status with busy := false, done := true } ∧ t.errCode = s.errCode)

/-- Rule R124: after both preconditions, operands that do not fit end ENCODE with `ERR_CAPACITY` (5). -/
def Obligations.EncodeCapacity : Prop :=
  ∀ s : State, s.digestLen.toNat = s.params.hlen →
    8 * s.params.hlen + 8 * s.saltLen.toNat + 9 ≤ s.bits.toNat →
    (s.params.emax < (s.bits.toNat + 7) / 8 ∨ s.params.scap < s.saltLen.toNat) →
    exec .encode s = .next { s with
      errCode := .capacity, status := { s.status with busy := false, done := true, err := true } } ∧
    ErrCode.capacity.number = 5

/-- Rules R125 to R131, R134 (a) to (d): the encoded message byte by byte: masked DB with its unused high bits clear,
then `H`, then the trailer; `EM_LEN` is its length, and nothing else changes. The mask is made with the default `MGF_CTR`
(log 4). -/
def Obligations.EncodeResult : Prop :=
  ∀ s : State, s.params.Valid → s.EncodeReady →
    ∃ t ol dbl top h, exec .encode s = .next t ∧
      ol = (s.bits.toNat + 7) / 8 ∧ dbl = ol - s.params.hlen - 1 ∧ top = 8 * ol - s.bits.toNat ∧
      h = hashBytes collab s.params.hlen (List.replicate 8 0 ++ s.digestOperand ++ s.saltOperand) ∧
      h.length = s.params.hlen ∧ 1 ≤ dbl ∧ top ≤ 7 ∧ t.emLen.toNat = ol ∧
      (∀ j, 0 < j → j < dbl → t.bufByte .em j =
        (List.replicate (dbl - s.saltLen.toNat - 1) 0 ++ 1 :: s.saltOperand).getD j 0 ^^^
          (mgf collab s.params.hlen h dbl).getD j 0) ∧
      t.bufByte .em 0 = ((List.replicate (dbl - s.saltLen.toNat - 1) 0 ++ 1 :: s.saltOperand).getD 0 0 ^^^
          (mgf collab s.params.hlen h dbl).getD 0 0) &&& BitVec.ofNat 8 (2 ^ (8 - top) - 1) ∧
      (t.bufByte .em 0).toNat < 2 ^ (8 - top) ∧
      (∀ j, j < s.params.hlen → t.bufByte .em (dbl + j) = h.getD j 0) ∧
      t.bufByte .em (ol - 1) = 0xBC ∧
      (∀ a, (a < 0x2000 ∨ 0x2000 + ol ≤ a) → t.mem.read a = s.mem.read a) ∧
      t = { s with mem := t.mem, emLen := t.emLen, status := { s.status with busy := false, done := true } }

/-! ### VERIFY -/

/-- Rules R141, R156, R157, R162: VERIFY computes, in its working buffer and by its scan and its comparator, exactly the
conjunction of the nine conditions: it accepts with the salt length when they hold and otherwise ends in the one false
completion. The mask is made with the default `MGF_CTR` (log 4). -/
def Obligations.VerifyDecidesNineConditions : Prop :=
  ∀ s : State, s.params.Valid →
    (∀ sl, s.Accepts collab sl → exec .verify s = .next { s with
      saltLenOut := BitVec.ofNat 32 sl, work := []
      status := { s.status with busy := false, done := true, vok := true } }) ∧
    ((∀ sl, ¬ s.Accepts collab sl) → exec .verify s = .next { s with
      work := [], status := { s.status with busy := false, done := true } })

/-- Rules R142 to R146, R148: each of the checks made before the block is unmasked (checks 1 to 5 and the capacity check)
ends VERIFY in the false completion, whatever the other operands hold. A padded block begins with 0x00 and passes check 5,
so only a candidate of full length can fail it. -/
def Obligations.VerifyEarlyChecks : Prop :=
  ∀ s : State,
    (s.bits.toNat < 8 * s.params.hlen + 9 ∨ s.digestLen.toNat ≠ s.params.hlen ∨ s.emLen.toNat ≤ 1 ∨
      (s.bits.toNat + 7) / 8 < s.emLen.toNat ∨ s.params.emax < (s.bits.toNat + 7) / 8 ∨
      s.bufByte .em (s.emLen.toNat - 1) ≠ 0xBC ∨
      (s.emLen.toNat = (s.bits.toNat + 7) / 8 ∧
        2 ^ (8 - (8 * ((s.bits.toNat + 7) / 8) - s.bits.toNat)) ≤ (s.bufByte .em 0).toNat)) →
    exec .verify s = .next { s with work := [], status := { s.status with busy := false, done := true } }

/-- Rule R157: all failures of VERIFY leave the same state, one that depends on no check. -/
def Obligations.VerifyFailuresAlike : Prop :=
  ∀ s : State, s.InProgress → ∃ t, exec .verify s = .next t ∧
    (t.status.vok = false → t = { s with
      work := []
      status := { busy := false, done := true, err := false, vok := false, accum := s.status.accum } } ∧
      t.saltLenOut = 0 ∧ t.errCode.number = 0)

/-- Rule R158: VERIFY changes no buffer and no operand register, and leaves `W` zero. -/
def Obligations.VerifyTouchesNothing : Prop :=
  ∀ s : State, ∃ t, exec .verify s = .next t ∧
    t = { s with status := t.status, saltLenOut := t.saltLenOut, work := t.work } ∧ (∀ a, t.work.read a = 0) ∧
    t.status.err = s.status.err ∧ t.status.accum = s.status.accum

/-- Rule R155: with an exact salt length required, no block with another salt length verifies. -/
def Obligations.VerifySaltPolicy : Prop :=
  ∀ s : State, s.InProgress → s.cfg.getLsbD 0 = true →
    ∃ t, exec .verify s = .next t ∧ (t.status.vok = true → t.saltLenOut = s.cfgSaltLen)

/-- Rules R134 (e), R160: what ENCODE produced, VERIFY accepts with the same registers, with the salt length, under no
policy or a policy for that length. -/
def Obligations.RoundTrip : Prop :=
  ∀ (s : State) (w : Word), s.params.Valid → s.EncodeReady →
    (s.cfg.getLsbD 0 = true → s.cfgSaltLen = s.saltLen) →
    ∃ t u, exec .encode s = .next t ∧ exec .verify (t.startCommand w) = .next u ∧
      u.status.vok = true ∧ u.status.err = false ∧ u.saltLenOut = s.saltLen ∧ u.mem = t.mem

/-- Rules R147, R161 (f): dropping a leading zero byte of a candidate changes nothing about its verification. -/
def Obligations.LeadingZeroMayBeDropped : Prop :=
  ∀ s v : State, s.params.Valid → s.InProgress → v.InProgress →
    s.emLen.toNat = v.emLen.toNat + 1 → 1 < v.emLen.toNat → s.emLen.toNat ≤ (s.bits.toNat + 7) / 8 →
    s.bufByte .em 0 = 0 → (∀ j, j < v.emLen.toNat → v.bufByte .em j = s.bufByte .em (j + 1)) →
    v.params = s.params → v.bits = s.bits → v.digestLen = s.digestLen → v.digestOperand = s.digestOperand →
    v.cfg = s.cfg → v.cfgSaltLen = s.cfgSaltLen →
    ∃ t u, exec .verify s = .next t ∧ exec .verify v = .next u ∧
      u.status.vok = t.status.vok ∧ u.saltLenOut = t.saltLenOut

/-! ### The wrapper -/

/-- Rules R171, R172: UPDATE appends the message bytes, or ends with `ERR_CAPACITY`. -/
def Obligations.UpdateResult : Prop :=
  ∀ s : State, s.params.variant ≠ .none →
    (s.msgLen.toNat ≤ s.params.mcap → exec .update s = .next { s with
      acc := s.acc ++ s.mem.readBytes 0x0200 s.msgLen.toNat
      accLen := BitVec.ofNat 32 (min (s.acc.length + s.msgLen.toNat) (2 ^ 32 - 1))
      status := { s.status with busy := false, done := true, accum := true } }) ∧
    (s.params.mcap < s.msgLen.toNat → exec .update s = .next { s with
      errCode := .capacity, status := { s.status with busy := false, done := true, err := true } })

/-- Rule R175: FINALIZE of the `HASHING` variant delivers the hash of the accumulated bytes and drains them. -/
def Obligations.FinalizeHashing : Prop :=
  ∀ s : State, s.params.Valid → s.params.variant = .hashing →
    ∃ t, exec .finalize s = .next t ∧ t.digestLen.toNat = s.params.hlen ∧
      (∀ j, j < s.params.hlen → t.bufByte .digest j = (hashBytes collab s.params.hlen s.acc).getD j 0) ∧
      (∀ a, (a < 0x0100 ∨ 0x0100 + s.params.hlen ≤ a) → t.mem.read a = s.mem.read a) ∧
      t = { s with
        mem := t.mem, digestLen := t.digestLen, acc := [], accLen := 0
        status := { s.status with busy := false, done := true, accum := false } }

/-- Rule R176: FINALIZE of the `RAW` variant drains the buffer and delivers it if it has exactly `HLEN` bytes; else it ends
with `ERR_RAW_LEN` (3) and leaves `DIGEST` and `DIGEST_LEN`. -/
def Obligations.FinalizeRaw : Prop :=
  ∀ s : State, s.params.Valid → s.params.variant = .raw →
    (s.acc.length = s.params.hlen → ∃ t, exec .finalize s = .next t ∧ t.digestLen.toNat = s.params.hlen ∧
      (∀ j, j < s.params.hlen → t.bufByte .digest j = s.acc.getD j 0) ∧
      (∀ a, (a < 0x0100 ∨ 0x0100 + s.params.hlen ≤ a) → t.mem.read a = s.mem.read a) ∧
      t = { s with
        mem := t.mem, digestLen := t.digestLen, acc := [], accLen := 0
        status := { s.status with busy := false, done := true, accum := false } }) ∧
    (s.acc.length ≠ s.params.hlen → exec .finalize s = .next { s with
      acc := [], accLen := 0, errCode := .rawLen
      status := { s.status with busy := false, done := true, err := true, accum := false } } ∧
      ErrCode.rawLen.number = 3)

/-- Rules R171, R174, R175: a message fed by two UPDATE commands, whatever the host does to the rest of the state between
them, is finalized to the hash of its pieces in order. -/
def Obligations.UpdatesConcatenate : Prop :=
  ∀ s : State, s.params.Valid → s.params.variant = .hashing → s.msgLen.toNat ≤ s.params.mcap →
    ∃ t, exec .update s = .next t ∧
    ∀ u : State, u.params = s.params → u.acc = t.acc → u.msgLen.toNat ≤ s.params.mcap →
    ∃ x, exec .update u = .next x ∧
    ∀ f : State, f.params = s.params → f.acc = x.acc →
    ∃ g, exec .finalize f = .next g ∧ g.acc = [] ∧
      g.buf .digest s.params.hlen = hashBytes collab s.params.hlen (s.acc ++ s.msgOperand ++ u.msgOperand)

/-- Rule R180: ENCODE_RND draws a salt of the configured length, stores it, and delivers the encoded message of the digest
and the drawn salt. The drawn bytes are free values (log 5); the mask is made with the default `MGF_CTR` (log 4). -/
def Obligations.EncodeRndResult : Prop :=
  ∀ s : State, s.params.Valid → s.params.variant ≠ .none → s.cfgSaltLen.toNat ≤ s.params.scap →
    s.digestLen.toNat = s.params.hlen →
    8 * s.params.hlen + 8 * s.cfgSaltLen.toNat + 9 ≤ s.bits.toNat → (s.bits.toNat + 7) / 8 ≤ s.params.emax →
    ∃ t salt, exec .encodeRnd s = .next t ∧ salt = (Config.rng s.rngDraws s.cfgSaltLen.toNat).toList ∧
      t.saltLen = s.cfgSaltLen ∧ t.saltOperand = salt ∧ t.rngDraws = s.rngDraws + 1 ∧
      t.emLen.toNat = (s.bits.toNat + 7) / 8 ∧
      t.emOperand = encodeBlock collab s.params.hlen ((s.bits.toNat + 7) / 8)
        (8 * ((s.bits.toNat + 7) / 8) - s.bits.toNat) s.digestOperand salt ∧
      (∀ a, (a < 0x1000 ∨ 0x1000 + s.cfgSaltLen.toNat ≤ a) → (a < 0x2000 ∨ 0x2000 + t.emLen.toNat ≤ a) →
        t.mem.read a = s.mem.read a) ∧
      t = { s with
        mem := t.mem, saltLen := t.saltLen, emLen := t.emLen, rngDraws := t.rngDraws
        status := { s.status with busy := false, done := true } }

/-- Rule R181: a salt length above the capacity is reported before anything is drawn; an error of ENCODE is reported
after the draw, which stays in `SALT` and `SALT_LEN` while `EM` and `EM_LEN` are unchanged. The drawn bytes are free
values, counted by the model's own `rngDraws` (log 5). -/
def Obligations.EncodeRndErrors : Prop :=
  ∀ s : State, s.params.Valid → s.params.variant ≠ .none →
    (s.params.scap < s.cfgSaltLen.toNat → exec .encodeRnd s = .next { s with
      errCode := .capacity, status := { s.status with busy := false, done := true, err := true } }) ∧
    (s.cfgSaltLen.toNat ≤ s.params.scap →
      (s.digestLen.toNat ≠ s.params.hlen ∨
        s.bits.toNat < 8 * s.params.hlen + 8 * s.cfgSaltLen.toNat + 9 ∨ s.params.emax < (s.bits.toNat + 7) / 8) →
      ∃ t, exec .encodeRnd s = .next t ∧ t.status.err = true ∧
        t.errCode = (if s.digestLen.toNat ≠ s.params.hlen then .digestLen
          else if s.bits.toNat < 8 * s.params.hlen + 8 * s.cfgSaltLen.toNat + 9 then .outputBits else .capacity) ∧
        t.saltLen = s.cfgSaltLen ∧ t.rngDraws = s.rngDraws + 1 ∧
        t.saltOperand = (Config.rng s.rngDraws s.cfgSaltLen.toNat).toList ∧
        t.emLen = s.emLen ∧ ∀ k, k < s.params.emax → t.bufByte .em k = s.bufByte .em k)

/-- Rule R182 (d): whatever was drawn, the message of ENCODE_RND verifies under the same configuration, with
`SALT_LEN_OUT = CFG_SALT_LEN`. The drawn bytes are free values (log 5). -/
def Obligations.EncodeRndVerifies : Prop :=
  ∀ (s : State) (w : Word), s.params.Valid → s.params.variant ≠ .none → s.cfgSaltLen.toNat ≤ s.params.scap →
    s.digestLen.toNat = s.params.hlen →
    8 * s.params.hlen + 8 * s.cfgSaltLen.toNat + 9 ≤ s.bits.toNat → (s.bits.toNat + 7) / 8 ≤ s.params.emax →
    ∃ t u, exec .encodeRnd s = .next t ∧ exec .verify (t.startCommand w) = .next u ∧
      u.status.vok = true ∧ u.saltLenOut = s.cfgSaltLen

/-- Rule R84: without a wrapper, its three commands do nothing but report `ERR_ILLEGAL_CMD` (log 16). -/
def Obligations.WrapperAbsent : Prop :=
  ∀ (s : State) (i : Instr), s.params.variant = .none → i.wellFormed .none = false →
    exec i s = .next { s with
      errCode := .illegalCmd, status := { s.status with busy := false, done := true, err := true } }

/-! ### Bytes -/

/-- Rule R16: the values the rule names, and that `sigbits(b) ≤ n` says `b < 2^n`. -/
def Obligations.SigbitsRule : Prop :=
  sigbits 0x00 = 0 ∧ sigbits 0x01 = 1 ∧ sigbits 0x7F = 7 ∧ sigbits 0x80 = 8 ∧
  ∀ (b : Byte) (n : Nat), sigbits b ≤ n ↔ b.toNat < 2 ^ n
end

