-- ==== Sys2Proof/Laws/Memory.lean ====
section
/-! SUPPORT. Sys2Proof/Laws/Memory.lean: the laws of the byte store: what a read sees after a write, that every
operation keeps the canonical form, and that canonical stores with equal bytes are equal. -/

namespace Sys2Proof.Machine.Memory

/-! ### One byte -/

theorem read_drop (m : Memory) (a b : Nat) : (m.drop a).read b = if b = a then 0 else m.read b := by
  induction m with
  | nil => simp [Memory.drop, Memory.read]
  | cons c t ih =>
    obtain ⟨k, v⟩ := c
    by_cases hk : k = a
    · subst hk
      have hd : Memory.drop ((k, v) :: t) k = Memory.drop t k := by simp [Memory.drop]
      rw [hd, ih]
      by_cases hb : b = k
      · simp [hb]
      · simp [hb, Memory.read, Ne.symm hb]
    · have hd : Memory.drop ((k, v) :: t) a = (k, v) :: Memory.drop t a := by simp [Memory.drop, hk]
      rw [hd]
      by_cases hb : k = b
      · subst hb; simp [Memory.read, hk]
      · simp [Memory.read, hb, ih]

theorem read_of_not_listed (m : Memory) (a : Nat) (h : ∀ c ∈ m, c.1 ≠ a) : m.read a = 0 := by
  induction m with
  | nil => rfl
  | cons c t ih =>
    obtain ⟨k, v⟩ := c
    have hk : k ≠ a := h (k, v) (by simp)
    simp [Memory.read, hk, ih (fun c hc => h c (by simp [hc]))]

theorem not_listed_drop (m : Memory) (a : Nat) : ∀ c ∈ m.drop a, c.1 ≠ a := by
  intro c hc
  simp only [Memory.drop, List.mem_filter, bne_iff_ne] at hc
  exact hc.2

theorem read_place (m : Memory) (a : Nat) (v : Byte) (h : ∀ c ∈ m, c.1 ≠ a) (b : Nat) :
    (m.place a v).read b = if b = a then v else m.read b := by
  induction m with
  | nil =>
    by_cases hb : b = a
    · simp [Memory.place, Memory.read, hb]
    · simp [Memory.place, Memory.read, hb, Ne.symm hb]
  | cons c t ih =>
    obtain ⟨k, x⟩ := c
    have hk : k ≠ a := h (k, x) (by simp)
    have ht := ih (fun c hc => h c (by simp [hc]))
    by_cases hb : b = a
    · subst hb
      by_cases hlt : b < k
      · simp [Memory.place, hlt, Memory.read]
      · simp only [Memory.place, hlt, if_false, Memory.read, hk]
        simpa using ht
    · by_cases hlt : a < k
      · simp [Memory.place, hlt, Memory.read, hb, Ne.symm hb]
      · simp only [Memory.place, hlt, if_false, Memory.read, hb] at ht ⊢
        rw [ht]

/-- The one law of a byte write: the byte written, and every other byte as before. -/
theorem read_write (m : Memory) (a : Nat) (v : Byte) (b : Nat) :
    (m.write a v).read b = if b = a then v else m.read b := by
  unfold Memory.write
  by_cases hv : v = 0
  · simp [hv, read_drop]
  · rw [if_neg hv, read_place _ _ _ (not_listed_drop m a), read_drop]
    by_cases hb : b = a <;> simp [hb]

@[simp] theorem read_write_same (m : Memory) (a : Nat) (v : Byte) : (m.write a v).read a = v := by
  simp [read_write]

theorem read_write_other (m : Memory) (a : Nat) (v : Byte) (b : Nat) (h : b ≠ a) :
    (m.write a v).read b = m.read b := by
  simp [read_write, h]

@[simp] theorem read_nil (a : Nat) : Memory.read [] a = 0 := rfl

/-! ### Runs of bytes -/

@[simp] theorem readBytes_length (m : Memory) (a n : Nat) : (m.readBytes a n).length = n := by
  induction n generalizing a with
  | zero => rfl
  | succ n ih => simp [Memory.readBytes, ih]

theorem readBytes_getElem (m : Memory) (a n i : Nat) (h : i < (m.readBytes a n).length) :
    (m.readBytes a n)[i] = m.read (a + i) := by
  induction n generalizing a i with
  | zero => simp at h
  | succ n ih =>
    cases i with
    | zero => simp [Memory.readBytes]
    | succ i =>
      simp only [Memory.readBytes, List.getElem_cons_succ]
      rw [ih]
      congr 1
      omega

/-- Two runs of bytes are equal when each byte is. -/
theorem readBytes_congr (m m' : Memory) (a a' n : Nat) (h : ∀ i, i < n → m.read (a + i) = m'.read (a' + i)) :
    m.readBytes a n = m'.readBytes a' n := by
  apply List.ext_getElem
  · simp
  · intro i h1 h2
    rw [readBytes_getElem, readBytes_getElem]
    exact h i (by simpa using h1)

theorem readBytes_drop (m : Memory) (a n k : Nat) : (m.readBytes a n).drop k = m.readBytes (a + k) (n - k) := by
  apply List.ext_getElem
  · simp
  · intro i h1 h2
    rw [List.getElem_drop, readBytes_getElem, readBytes_getElem]
    congr 1
    omega

theorem readBytes_take (m : Memory) (a n k : Nat) : (m.readBytes a n).take k = m.readBytes a (min k n) := by
  apply List.ext_getElem
  · simp
  · intro i h1 h2
    rw [List.getElem_take, readBytes_getElem, readBytes_getElem]

/-- The one law of a run write: inside the run the bytes written, outside it every byte as before. -/
theorem read_writeBytes (m : Memory) (a : Nat) (bs : List Byte) (b : Nat) :
    (m.writeBytes a bs).read b = if a ≤ b ∧ b < a + bs.length then bs.getD (b - a) 0 else m.read b := by
  induction bs generalizing m a with
  | nil =>
    have : ¬ (a ≤ b ∧ b < a) := by omega
    simp [Memory.writeBytes, this]
  | cons x xs ih =>
    rw [Memory.writeBytes, ih, read_write]
    rcases Nat.lt_trichotomy b a with h | h | h
    · have h1 : ¬ (a + 1 ≤ b ∧ b < a + 1 + xs.length) := by omega
      have h2 : ¬ (a ≤ b ∧ b < a + (x :: xs).length) := by omega
      rw [if_neg h1, if_neg h2, if_neg (by omega)]
    · subst h
      have h1 : ¬ (b + 1 ≤ b ∧ b < b + 1 + xs.length) := by omega
      rw [if_neg h1, if_pos rfl, if_pos ⟨Nat.le_refl b, by simp⟩]
      simp
    · obtain ⟨d, rfl⟩ : ∃ d, b = a + 1 + d := ⟨b - a - 1, by omega⟩
      rw [show a + 1 + d - (a + 1) = d by omega, show a + 1 + d - a = d + 1 by omega, List.getD_cons_succ]
      simp only [List.length_cons]
      by_cases h3 : d < xs.length
      · rw [if_pos (by omega), if_pos (by omega)]
      · rw [if_neg (by omega), if_neg (by omega), if_neg (by omega)]

theorem read_writeBytes_outside (m : Memory) (a : Nat) (bs : List Byte) (b : Nat)
    (h : b < a ∨ a + bs.length ≤ b) : (m.writeBytes a bs).read b = m.read b := by
  rw [read_writeBytes, if_neg (by omega)]

theorem read_writeBytes_inside (m : Memory) (a : Nat) (bs : List Byte) (i : Nat) (h : i < bs.length) :
    (m.writeBytes a bs).read (a + i) = bs[i] := by
  rw [read_writeBytes, if_pos (by omega)]
  simp [h]

/-- Reading back the run that was written. -/
theorem readBytes_writeBytes (m : Memory) (a : Nat) (bs : List Byte) :
    (m.writeBytes a bs).readBytes a bs.length = bs := by
  apply List.ext_getElem
  · simp
  · intro i h1 h2
    rw [readBytes_getElem, read_writeBytes_inside _ _ _ _ h2]

/-- Reading any part of the run that was written. -/
theorem readBytes_writeBytes_part (m : Memory) (a : Nat) (bs : List Byte) (k n : Nat) (h : k + n ≤ bs.length) :
    (m.writeBytes a bs).readBytes (a + k) n = (bs.drop k).take n := by
  apply List.ext_getElem
  · simp; omega
  · intro i h1 h2
    have h1' : i < n := by simpa using h1
    rw [readBytes_getElem, show a + k + i = a + (k + i) by omega, read_writeBytes_inside _ _ _ _ (by omega)]
    simp

/-- A run away from the one written reads as before. -/
theorem readBytes_writeBytes_apart (m : Memory) (a : Nat) (bs : List Byte) (b n : Nat)
    (h : b + n ≤ a ∨ a + bs.length ≤ b) : (m.writeBytes a bs).readBytes b n = m.readBytes b n := by
  apply readBytes_congr
  intro i hi
  exact read_writeBytes_outside _ _ _ _ (by omega)

/-! ### The canonical form -/

theorem wf_cons (a : Nat) (v : Byte) (t : Memory) :
    Memory.wf ((a, v) :: t) = true ↔ v ≠ 0 ∧ (∀ c ∈ t, a < c.1) ∧ Memory.wf t = true := by
  simp [Memory.wf, and_assoc]

theorem wf_drop (m : Memory) (a : Nat) (h : m.wf = true) : (m.drop a).wf = true := by
  induction m with
  | nil => exact h
  | cons c t ih =>
    obtain ⟨k, v⟩ := c
    rw [wf_cons] at h
    by_cases hk : k = a
    · have hd : Memory.drop ((k, v) :: t) a = Memory.drop t a := by simp [Memory.drop, hk]
      rw [hd]
      exact ih h.2.2
    · have hd : Memory.drop ((k, v) :: t) a = (k, v) :: Memory.drop t a := by simp [Memory.drop, hk]
      rw [hd, wf_cons]
      exact ⟨h.1, fun c hc => h.2.1 c (List.mem_of_mem_filter hc), ih h.2.2⟩

theorem mem_place (m : Memory) (a : Nat) (v : Byte) (c : Host.Cell) : c ∈ m.place a v ↔ c = (a, v) ∨ c ∈ m := by
  induction m with
  | nil => simp [Memory.place]
  | cons d t ih =>
    obtain ⟨k, x⟩ := d
    by_cases hlt : a < k
    · simp [Memory.place, hlt]
    · simp only [Memory.place, hlt, if_false, List.mem_cons, ih]
      tauto

theorem wf_place (m : Memory) (a : Nat) (v : Byte) (hv : v ≠ 0) (hn : ∀ c ∈ m, c.1 ≠ a) (h : m.wf = true) :
    (m.place a v).wf = true := by
  induction m with
  | nil => simpa [Memory.place, Memory.wf] using hv
  | cons c t ih =>
    obtain ⟨k, x⟩ := c
    have h' := (wf_cons k x t).1 h
    have hk : k ≠ a := hn (k, x) (by simp)
    by_cases hlt : a < k
    · simp only [Memory.place, hlt, if_true]
      rw [wf_cons]
      refine ⟨hv, ?_, h⟩
      intro c hc
      rcases List.mem_cons.1 hc with rfl | hc
      · exact hlt
      · exact Nat.lt_trans hlt (h'.2.1 c hc)
    · simp only [Memory.place, hlt, if_false]
      rw [wf_cons]
      refine ⟨h'.1, ?_, ih (fun c hc => hn c (by simp [hc])) h'.2.2⟩
      intro c hc
      rcases (mem_place t a v c).1 hc with rfl | hc
      · simp only; omega
      · exact h'.2.1 c hc

/-- A byte write keeps the canonical form. -/
theorem wf_write (m : Memory) (a : Nat) (v : Byte) (h : m.wf = true) : (m.write a v).wf = true := by
  unfold Memory.write
  split
  · exact wf_drop m a h
  · rename_i hv
    exact wf_place _ a v hv (not_listed_drop m a) (wf_drop m a h)

/-- A run write keeps the canonical form. -/
theorem wf_writeBytes (m : Memory) (a : Nat) (bs : List Byte) (h : m.wf = true) : (m.writeBytes a bs).wf = true := by
  induction bs generalizing m a with
  | nil => exact h
  | cons x xs ih => exact ih _ _ (wf_write m a x h)

/-- What a byte write lists: nothing new but the byte written. -/
theorem listed_write (m : Memory) (a : Nat) (v : Byte) (c : Host.Cell) (h : c ∈ m.write a v) : c = (a, v) ∨ c ∈ m := by
  unfold Memory.write at h
  split at h
  · exact .inr (List.mem_of_mem_filter h)
  · rcases (mem_place _ a v c).1 h with h | h
    · exact .inl h
    · exact .inr (List.mem_of_mem_filter h)

/-- What a run write lists: nothing new but bytes of the run. -/
theorem listed_writeBytes (m : Memory) (a : Nat) (bs : List Byte) (c : Host.Cell) (h : c ∈ m.writeBytes a bs) :
    (a ≤ c.1 ∧ c.1 < a + bs.length) ∨ c ∈ m := by
  induction bs generalizing m a with
  | nil => exact .inr h
  | cons x xs ih =>
    rcases ih _ _ h with h | h
    · left; simp only [List.length_cons]; omega
    · rcases listed_write m a x c h with rfl | h
      · left; simp
      · exact .inr h

/-- In a canonical store, a listed byte is what is read at its address. -/
theorem read_of_listed (m : Memory) (h : m.wf = true) (a : Nat) (v : Byte) (hm : (a, v) ∈ m) : m.read a = v := by
  induction m with
  | nil => simp at hm
  | cons c t ih =>
    obtain ⟨k, x⟩ := c
    rw [wf_cons] at h
    rcases List.mem_cons.1 hm with he | ht
    · cases he; simp [Memory.read]
    · have hlt := h.2.1 _ ht
      have hne : k ≠ a := by simp only at hlt; omega
      simp [Memory.read, hne, ih h.2.2 ht]

/-- Canonical stores that read alike are the same data. -/
theorem eq_of_read (m m' : Memory) (h : m.wf = true) (h' : m'.wf = true) (he : ∀ a, m.read a = m'.read a) :
    m = m' := by
  induction m generalizing m' with
  | nil =>
    cases m' with
    | nil => rfl
    | cons c t =>
      obtain ⟨k, x⟩ := c
      have := he k
      simp [Memory.read] at this
      exact absurd this.symm ((wf_cons _ _ _).1 h').1
  | cons c t ih =>
    obtain ⟨k, x⟩ := c
    have hw := (wf_cons _ _ _).1 h
    cases m' with
    | nil =>
      have := he k
      simp [Memory.read] at this
      exact absurd this hw.1
    | cons d u =>
      obtain ⟨j, y⟩ := d
      have hw' := (wf_cons _ _ _).1 h'
      have hkj : k = j := by
        rcases Nat.lt_trichotomy k j with hlt | heq | hlt
        · have hk := he k
          rw [read_of_not_listed ((j, y) :: u) k ?_] at hk
          · simp [Memory.read] at hk
            exact absurd hk hw.1
          · intro c hc
            rcases List.mem_cons.1 hc with rfl | hc
            · simp only; omega
            · have := hw'.2.1 c hc; omega
        · exact heq
        · have hk := he j
          rw [read_of_not_listed ((k, x) :: t) j ?_] at hk
          · simp [Memory.read] at hk
            exact absurd hk.symm hw'.1
          · intro c hc
            rcases List.mem_cons.1 hc with rfl | hc
            · simp only; omega
            · have := hw.2.1 c hc; omega
      subst hkj
      have hxy : x = y := by simpa [Memory.read] using he k
      subst hxy
      congr 1
      apply ih _ hw.2.2 hw'.2.2
      intro a
      by_cases hka : k = a
      · subst hka
        rw [read_of_not_listed t k (fun c hc => by have := hw.2.1 c hc; omega),
          read_of_not_listed u k (fun c hc => by have := hw'.2.1 c hc; omega)]
      · simpa [Memory.read, hka] using he a

/-- The memory and the working buffer after reset are in canonical form. -/
theorem reset_wf : State.reset.mem.wf = true ∧ State.reset.work.wf = true := ⟨rfl, rfl⟩

end Sys2Proof.Machine.Memory
end

