-- ==== Sys2Proof/Laws/State.lean ====
section
/-! SUPPORT. Sys2Proof/Laws/State.lean: for each named operation on the state, what each field is afterwards, and for
each flag update, what each flag is afterwards. -/

namespace Sys2Proof.Machine

@[simp] theorem Status.start_busy (f : Status) : (f.start).busy = true := rfl
@[simp] theorem Status.start_done (f : Status) : (f.start).done = false := rfl
@[simp] theorem Status.start_err (f : Status) : (f.start).err = false := rfl
@[simp] theorem Status.start_vok (f : Status) : (f.start).vok = false := rfl
@[simp] theorem Status.start_accum (f : Status) : (f.start).accum = f.accum := rfl

@[simp] theorem Status.complete_busy (f : Status) : (f.complete).busy = false := rfl
@[simp] theorem Status.complete_done (f : Status) : (f.complete).done = true := rfl
@[simp] theorem Status.complete_err (f : Status) : (f.complete).err = f.err := rfl
@[simp] theorem Status.complete_vok (f : Status) : (f.complete).vok = f.vok := rfl
@[simp] theorem Status.complete_accum (f : Status) : (f.complete).accum = f.accum := rfl

@[simp] theorem Status.setErr_busy (f : Status) : (f.setErr).busy = f.busy := rfl
@[simp] theorem Status.setErr_done (f : Status) : (f.setErr).done = f.done := rfl
@[simp] theorem Status.setErr_err (f : Status) : (f.setErr).err = true := rfl
@[simp] theorem Status.setErr_vok (f : Status) : (f.setErr).vok = f.vok := rfl
@[simp] theorem Status.setErr_accum (f : Status) : (f.setErr).accum = f.accum := rfl

@[simp] theorem Status.setVok_busy (f : Status) : (f.setVok).busy = f.busy := rfl
@[simp] theorem Status.setVok_done (f : Status) : (f.setVok).done = f.done := rfl
@[simp] theorem Status.setVok_err (f : Status) : (f.setVok).err = f.err := rfl
@[simp] theorem Status.setVok_vok (f : Status) : (f.setVok).vok = true := rfl
@[simp] theorem Status.setVok_accum (f : Status) : (f.setVok).accum = f.accum := rfl

@[simp] theorem Status.setAccum_busy (b : Bool) (f : Status) : (f.setAccum b).busy = f.busy := rfl
@[simp] theorem Status.setAccum_done (b : Bool) (f : Status) : (f.setAccum b).done = f.done := rfl
@[simp] theorem Status.setAccum_err (b : Bool) (f : Status) : (f.setAccum b).err = f.err := rfl
@[simp] theorem Status.setAccum_vok (b : Bool) (f : Status) : (f.setAccum b).vok = f.vok := rfl
@[simp] theorem Status.setAccum_accum (b : Bool) (f : Status) : (f.setAccum b).accum = b := rfl

@[simp] theorem State.storeBuf_params (b : Buffer) (bs : List Byte) (s : State) : (s.storeBuf b bs).params = s.params := rfl
@[simp] theorem State.storeBuf_status (b : Buffer) (bs : List Byte) (s : State) : (s.storeBuf b bs).status = s.status := rfl
@[simp] theorem State.storeBuf_errCode (b : Buffer) (bs : List Byte) (s : State) : (s.storeBuf b bs).errCode = s.errCode := rfl
@[simp] theorem State.storeBuf_bits (b : Buffer) (bs : List Byte) (s : State) : (s.storeBuf b bs).bits = s.bits := rfl
@[simp] theorem State.storeBuf_digestLen (b : Buffer) (bs : List Byte) (s : State) : (s.storeBuf b bs).digestLen = s.digestLen := rfl
@[simp] theorem State.storeBuf_saltLen (b : Buffer) (bs : List Byte) (s : State) : (s.storeBuf b bs).saltLen = s.saltLen := rfl
@[simp] theorem State.storeBuf_emLen (b : Buffer) (bs : List Byte) (s : State) : (s.storeBuf b bs).emLen = s.emLen := rfl
@[simp] theorem State.storeBuf_cfg (b : Buffer) (bs : List Byte) (s : State) : (s.storeBuf b bs).cfg = s.cfg := rfl
@[simp] theorem State.storeBuf_cfgSaltLen (b : Buffer) (bs : List Byte) (s : State) : (s.storeBuf b bs).cfgSaltLen = s.cfgSaltLen := rfl
@[simp] theorem State.storeBuf_saltLenOut (b : Buffer) (bs : List Byte) (s : State) : (s.storeBuf b bs).saltLenOut = s.saltLenOut := rfl
@[simp] theorem State.storeBuf_msgLen (b : Buffer) (bs : List Byte) (s : State) : (s.storeBuf b bs).msgLen = s.msgLen := rfl
@[simp] theorem State.storeBuf_accLen (b : Buffer) (bs : List Byte) (s : State) : (s.storeBuf b bs).accLen = s.accLen := rfl
@[simp] theorem State.storeBuf_opLatch (b : Buffer) (bs : List Byte) (s : State) : (s.storeBuf b bs).opLatch = s.opLatch := rfl
@[simp] theorem State.storeBuf_mem (b : Buffer) (bs : List Byte) (s : State) : (s.storeBuf b bs).mem = s.mem.writeBytes b.base bs := rfl
@[simp] theorem State.storeBuf_work (b : Buffer) (bs : List Byte) (s : State) : (s.storeBuf b bs).work = s.work := rfl
@[simp] theorem State.storeBuf_acc (b : Buffer) (bs : List Byte) (s : State) : (s.storeBuf b bs).acc = s.acc := rfl
@[simp] theorem State.storeBuf_events (b : Buffer) (bs : List Byte) (s : State) : (s.storeBuf b bs).events = s.events := rfl
@[simp] theorem State.storeBuf_busData (b : Buffer) (bs : List Byte) (s : State) : (s.storeBuf b bs).busData = s.busData := rfl
@[simp] theorem State.storeBuf_rngDraws (b : Buffer) (bs : List Byte) (s : State) : (s.storeBuf b bs).rngDraws = s.rngDraws := rfl
@[simp] theorem State.storeBuf_busyReads (b : Buffer) (bs : List Byte) (s : State) : (s.storeBuf b bs).busyReads = s.busyReads := rfl

@[simp] theorem State.setEmLen_params (n : Nat) (s : State) : (s.setEmLen n).params = s.params := rfl
@[simp] theorem State.setEmLen_status (n : Nat) (s : State) : (s.setEmLen n).status = s.status := rfl
@[simp] theorem State.setEmLen_errCode (n : Nat) (s : State) : (s.setEmLen n).errCode = s.errCode := rfl
@[simp] theorem State.setEmLen_bits (n : Nat) (s : State) : (s.setEmLen n).bits = s.bits := rfl
@[simp] theorem State.setEmLen_digestLen (n : Nat) (s : State) : (s.setEmLen n).digestLen = s.digestLen := rfl
@[simp] theorem State.setEmLen_saltLen (n : Nat) (s : State) : (s.setEmLen n).saltLen = s.saltLen := rfl
@[simp] theorem State.setEmLen_emLen (n : Nat) (s : State) : (s.setEmLen n).emLen = BitVec.ofNat 32 n := rfl
@[simp] theorem State.setEmLen_cfg (n : Nat) (s : State) : (s.setEmLen n).cfg = s.cfg := rfl
@[simp] theorem State.setEmLen_cfgSaltLen (n : Nat) (s : State) : (s.setEmLen n).cfgSaltLen = s.cfgSaltLen := rfl
@[simp] theorem State.setEmLen_saltLenOut (n : Nat) (s : State) : (s.setEmLen n).saltLenOut = s.saltLenOut := rfl
@[simp] theorem State.setEmLen_msgLen (n : Nat) (s : State) : (s.setEmLen n).msgLen = s.msgLen := rfl
@[simp] theorem State.setEmLen_accLen (n : Nat) (s : State) : (s.setEmLen n).accLen = s.accLen := rfl
@[simp] theorem State.setEmLen_opLatch (n : Nat) (s : State) : (s.setEmLen n).opLatch = s.opLatch := rfl
@[simp] theorem State.setEmLen_mem (n : Nat) (s : State) : (s.setEmLen n).mem = s.mem := rfl
@[simp] theorem State.setEmLen_work (n : Nat) (s : State) : (s.setEmLen n).work = s.work := rfl
@[simp] theorem State.setEmLen_acc (n : Nat) (s : State) : (s.setEmLen n).acc = s.acc := rfl
@[simp] theorem State.setEmLen_events (n : Nat) (s : State) : (s.setEmLen n).events = s.events := rfl
@[simp] theorem State.setEmLen_busData (n : Nat) (s : State) : (s.setEmLen n).busData = s.busData := rfl
@[simp] theorem State.setEmLen_rngDraws (n : Nat) (s : State) : (s.setEmLen n).rngDraws = s.rngDraws := rfl
@[simp] theorem State.setEmLen_busyReads (n : Nat) (s : State) : (s.setEmLen n).busyReads = s.busyReads := rfl

@[simp] theorem State.setDigestLen_params (n : Nat) (s : State) : (s.setDigestLen n).params = s.params := rfl
@[simp] theorem State.setDigestLen_status (n : Nat) (s : State) : (s.setDigestLen n).status = s.status := rfl
@[simp] theorem State.setDigestLen_errCode (n : Nat) (s : State) : (s.setDigestLen n).errCode = s.errCode := rfl
@[simp] theorem State.setDigestLen_bits (n : Nat) (s : State) : (s.setDigestLen n).bits = s.bits := rfl
@[simp] theorem State.setDigestLen_digestLen (n : Nat) (s : State) : (s.setDigestLen n).digestLen = BitVec.ofNat 32 n := rfl
@[simp] theorem State.setDigestLen_saltLen (n : Nat) (s : State) : (s.setDigestLen n).saltLen = s.saltLen := rfl
@[simp] theorem State.setDigestLen_emLen (n : Nat) (s : State) : (s.setDigestLen n).emLen = s.emLen := rfl
@[simp] theorem State.setDigestLen_cfg (n : Nat) (s : State) : (s.setDigestLen n).cfg = s.cfg := rfl
@[simp] theorem State.setDigestLen_cfgSaltLen (n : Nat) (s : State) : (s.setDigestLen n).cfgSaltLen = s.cfgSaltLen := rfl
@[simp] theorem State.setDigestLen_saltLenOut (n : Nat) (s : State) : (s.setDigestLen n).saltLenOut = s.saltLenOut := rfl
@[simp] theorem State.setDigestLen_msgLen (n : Nat) (s : State) : (s.setDigestLen n).msgLen = s.msgLen := rfl
@[simp] theorem State.setDigestLen_accLen (n : Nat) (s : State) : (s.setDigestLen n).accLen = s.accLen := rfl
@[simp] theorem State.setDigestLen_opLatch (n : Nat) (s : State) : (s.setDigestLen n).opLatch = s.opLatch := rfl
@[simp] theorem State.setDigestLen_mem (n : Nat) (s : State) : (s.setDigestLen n).mem = s.mem := rfl
@[simp] theorem State.setDigestLen_work (n : Nat) (s : State) : (s.setDigestLen n).work = s.work := rfl
@[simp] theorem State.setDigestLen_acc (n : Nat) (s : State) : (s.setDigestLen n).acc = s.acc := rfl
@[simp] theorem State.setDigestLen_events (n : Nat) (s : State) : (s.setDigestLen n).events = s.events := rfl
@[simp] theorem State.setDigestLen_busData (n : Nat) (s : State) : (s.setDigestLen n).busData = s.busData := rfl
@[simp] theorem State.setDigestLen_rngDraws (n : Nat) (s : State) : (s.setDigestLen n).rngDraws = s.rngDraws := rfl
@[simp] theorem State.setDigestLen_busyReads (n : Nat) (s : State) : (s.setDigestLen n).busyReads = s.busyReads := rfl

@[simp] theorem State.setSaltLen_params (v : Word) (s : State) : (s.setSaltLen v).params = s.params := rfl
@[simp] theorem State.setSaltLen_status (v : Word) (s : State) : (s.setSaltLen v).status = s.status := rfl
@[simp] theorem State.setSaltLen_errCode (v : Word) (s : State) : (s.setSaltLen v).errCode = s.errCode := rfl
@[simp] theorem State.setSaltLen_bits (v : Word) (s : State) : (s.setSaltLen v).bits = s.bits := rfl
@[simp] theorem State.setSaltLen_digestLen (v : Word) (s : State) : (s.setSaltLen v).digestLen = s.digestLen := rfl
@[simp] theorem State.setSaltLen_saltLen (v : Word) (s : State) : (s.setSaltLen v).saltLen = v := rfl
@[simp] theorem State.setSaltLen_emLen (v : Word) (s : State) : (s.setSaltLen v).emLen = s.emLen := rfl
@[simp] theorem State.setSaltLen_cfg (v : Word) (s : State) : (s.setSaltLen v).cfg = s.cfg := rfl
@[simp] theorem State.setSaltLen_cfgSaltLen (v : Word) (s : State) : (s.setSaltLen v).cfgSaltLen = s.cfgSaltLen := rfl
@[simp] theorem State.setSaltLen_saltLenOut (v : Word) (s : State) : (s.setSaltLen v).saltLenOut = s.saltLenOut := rfl
@[simp] theorem State.setSaltLen_msgLen (v : Word) (s : State) : (s.setSaltLen v).msgLen = s.msgLen := rfl
@[simp] theorem State.setSaltLen_accLen (v : Word) (s : State) : (s.setSaltLen v).accLen = s.accLen := rfl
@[simp] theorem State.setSaltLen_opLatch (v : Word) (s : State) : (s.setSaltLen v).opLatch = s.opLatch := rfl
@[simp] theorem State.setSaltLen_mem (v : Word) (s : State) : (s.setSaltLen v).mem = s.mem := rfl
@[simp] theorem State.setSaltLen_work (v : Word) (s : State) : (s.setSaltLen v).work = s.work := rfl
@[simp] theorem State.setSaltLen_acc (v : Word) (s : State) : (s.setSaltLen v).acc = s.acc := rfl
@[simp] theorem State.setSaltLen_events (v : Word) (s : State) : (s.setSaltLen v).events = s.events := rfl
@[simp] theorem State.setSaltLen_busData (v : Word) (s : State) : (s.setSaltLen v).busData = s.busData := rfl
@[simp] theorem State.setSaltLen_rngDraws (v : Word) (s : State) : (s.setSaltLen v).rngDraws = s.rngDraws := rfl
@[simp] theorem State.setSaltLen_busyReads (v : Word) (s : State) : (s.setSaltLen v).busyReads = s.busyReads := rfl

@[simp] theorem State.setAcc_params (a : List Byte) (b : Bool) (s : State) : (s.setAcc a b).params = s.params := rfl
@[simp] theorem State.setAcc_status (a : List Byte) (b : Bool) (s : State) : (s.setAcc a b).status = s.status.setAccum b := rfl
@[simp] theorem State.setAcc_errCode (a : List Byte) (b : Bool) (s : State) : (s.setAcc a b).errCode = s.errCode := rfl
@[simp] theorem State.setAcc_bits (a : List Byte) (b : Bool) (s : State) : (s.setAcc a b).bits = s.bits := rfl
@[simp] theorem State.setAcc_digestLen (a : List Byte) (b : Bool) (s : State) : (s.setAcc a b).digestLen = s.digestLen := rfl
@[simp] theorem State.setAcc_saltLen (a : List Byte) (b : Bool) (s : State) : (s.setAcc a b).saltLen = s.saltLen := rfl
@[simp] theorem State.setAcc_emLen (a : List Byte) (b : Bool) (s : State) : (s.setAcc a b).emLen = s.emLen := rfl
@[simp] theorem State.setAcc_cfg (a : List Byte) (b : Bool) (s : State) : (s.setAcc a b).cfg = s.cfg := rfl
@[simp] theorem State.setAcc_cfgSaltLen (a : List Byte) (b : Bool) (s : State) : (s.setAcc a b).cfgSaltLen = s.cfgSaltLen := rfl
@[simp] theorem State.setAcc_saltLenOut (a : List Byte) (b : Bool) (s : State) : (s.setAcc a b).saltLenOut = s.saltLenOut := rfl
@[simp] theorem State.setAcc_msgLen (a : List Byte) (b : Bool) (s : State) : (s.setAcc a b).msgLen = s.msgLen := rfl
@[simp] theorem State.setAcc_accLen (a : List Byte) (b : Bool) (s : State) : (s.setAcc a b).accLen = accLenOf a := rfl
@[simp] theorem State.setAcc_opLatch (a : List Byte) (b : Bool) (s : State) : (s.setAcc a b).opLatch = s.opLatch := rfl
@[simp] theorem State.setAcc_mem (a : List Byte) (b : Bool) (s : State) : (s.setAcc a b).mem = s.mem := rfl
@[simp] theorem State.setAcc_work (a : List Byte) (b : Bool) (s : State) : (s.setAcc a b).work = s.work := rfl
@[simp] theorem State.setAcc_acc (a : List Byte) (b : Bool) (s : State) : (s.setAcc a b).acc = a := rfl
@[simp] theorem State.setAcc_events (a : List Byte) (b : Bool) (s : State) : (s.setAcc a b).events = s.events := rfl
@[simp] theorem State.setAcc_busData (a : List Byte) (b : Bool) (s : State) : (s.setAcc a b).busData = s.busData := rfl
@[simp] theorem State.setAcc_rngDraws (a : List Byte) (b : Bool) (s : State) : (s.setAcc a b).rngDraws = s.rngDraws := rfl
@[simp] theorem State.setAcc_busyReads (a : List Byte) (b : Bool) (s : State) : (s.setAcc a b).busyReads = s.busyReads := rfl

@[simp] theorem State.clearWork_params (s : State) : (s.clearWork).params = s.params := rfl
@[simp] theorem State.clearWork_status (s : State) : (s.clearWork).status = s.status := rfl
@[simp] theorem State.clearWork_errCode (s : State) : (s.clearWork).errCode = s.errCode := rfl
@[simp] theorem State.clearWork_bits (s : State) : (s.clearWork).bits = s.bits := rfl
@[simp] theorem State.clearWork_digestLen (s : State) : (s.clearWork).digestLen = s.digestLen := rfl
@[simp] theorem State.clearWork_saltLen (s : State) : (s.clearWork).saltLen = s.saltLen := rfl
@[simp] theorem State.clearWork_emLen (s : State) : (s.clearWork).emLen = s.emLen := rfl
@[simp] theorem State.clearWork_cfg (s : State) : (s.clearWork).cfg = s.cfg := rfl
@[simp] theorem State.clearWork_cfgSaltLen (s : State) : (s.clearWork).cfgSaltLen = s.cfgSaltLen := rfl
@[simp] theorem State.clearWork_saltLenOut (s : State) : (s.clearWork).saltLenOut = s.saltLenOut := rfl
@[simp] theorem State.clearWork_msgLen (s : State) : (s.clearWork).msgLen = s.msgLen := rfl
@[simp] theorem State.clearWork_accLen (s : State) : (s.clearWork).accLen = s.accLen := rfl
@[simp] theorem State.clearWork_opLatch (s : State) : (s.clearWork).opLatch = s.opLatch := rfl
@[simp] theorem State.clearWork_mem (s : State) : (s.clearWork).mem = s.mem := rfl
@[simp] theorem State.clearWork_work (s : State) : (s.clearWork).work = [] := rfl
@[simp] theorem State.clearWork_acc (s : State) : (s.clearWork).acc = s.acc := rfl
@[simp] theorem State.clearWork_events (s : State) : (s.clearWork).events = s.events := rfl
@[simp] theorem State.clearWork_busData (s : State) : (s.clearWork).busData = s.busData := rfl
@[simp] theorem State.clearWork_rngDraws (s : State) : (s.clearWork).rngDraws = s.rngDraws := rfl
@[simp] theorem State.clearWork_busyReads (s : State) : (s.clearWork).busyReads = s.busyReads := rfl

@[simp] theorem State.startCommand_params (v : Word) (s : State) : (s.startCommand v).params = s.params := rfl
@[simp] theorem State.startCommand_status (v : Word) (s : State) : (s.startCommand v).status = s.status.start := rfl
@[simp] theorem State.startCommand_errCode (v : Word) (s : State) : (s.startCommand v).errCode = .none := rfl
@[simp] theorem State.startCommand_bits (v : Word) (s : State) : (s.startCommand v).bits = s.bits := rfl
@[simp] theorem State.startCommand_digestLen (v : Word) (s : State) : (s.startCommand v).digestLen = s.digestLen := rfl
@[simp] theorem State.startCommand_saltLen (v : Word) (s : State) : (s.startCommand v).saltLen = s.saltLen := rfl
@[simp] theorem State.startCommand_emLen (v : Word) (s : State) : (s.startCommand v).emLen = s.emLen := rfl
@[simp] theorem State.startCommand_cfg (v : Word) (s : State) : (s.startCommand v).cfg = s.cfg := rfl
@[simp] theorem State.startCommand_cfgSaltLen (v : Word) (s : State) : (s.startCommand v).cfgSaltLen = s.cfgSaltLen := rfl
@[simp] theorem State.startCommand_saltLenOut (v : Word) (s : State) : (s.startCommand v).saltLenOut = 0 := rfl
@[simp] theorem State.startCommand_msgLen (v : Word) (s : State) : (s.startCommand v).msgLen = s.msgLen := rfl
@[simp] theorem State.startCommand_accLen (v : Word) (s : State) : (s.startCommand v).accLen = s.accLen := rfl
@[simp] theorem State.startCommand_opLatch (v : Word) (s : State) : (s.startCommand v).opLatch = v := rfl
@[simp] theorem State.startCommand_mem (v : Word) (s : State) : (s.startCommand v).mem = s.mem := rfl
@[simp] theorem State.startCommand_work (v : Word) (s : State) : (s.startCommand v).work = s.work := rfl
@[simp] theorem State.startCommand_acc (v : Word) (s : State) : (s.startCommand v).acc = s.acc := rfl
@[simp] theorem State.startCommand_events (v : Word) (s : State) : (s.startCommand v).events = s.events := rfl
@[simp] theorem State.startCommand_busData (v : Word) (s : State) : (s.startCommand v).busData = s.busData := rfl
@[simp] theorem State.startCommand_rngDraws (v : Word) (s : State) : (s.startCommand v).rngDraws = s.rngDraws := rfl
@[simp] theorem State.startCommand_busyReads (v : Word) (s : State) : (s.startCommand v).busyReads = s.busyReads := rfl

@[simp] theorem State.complete_params (s : State) : (s.complete).params = s.params := rfl
@[simp] theorem State.complete_status (s : State) : (s.complete).status = s.status.complete := rfl
@[simp] theorem State.complete_errCode (s : State) : (s.complete).errCode = s.errCode := rfl
@[simp] theorem State.complete_bits (s : State) : (s.complete).bits = s.bits := rfl
@[simp] theorem State.complete_digestLen (s : State) : (s.complete).digestLen = s.digestLen := rfl
@[simp] theorem State.complete_saltLen (s : State) : (s.complete).saltLen = s.saltLen := rfl
@[simp] theorem State.complete_emLen (s : State) : (s.complete).emLen = s.emLen := rfl
@[simp] theorem State.complete_cfg (s : State) : (s.complete).cfg = s.cfg := rfl
@[simp] theorem State.complete_cfgSaltLen (s : State) : (s.complete).cfgSaltLen = s.cfgSaltLen := rfl
@[simp] theorem State.complete_saltLenOut (s : State) : (s.complete).saltLenOut = s.saltLenOut := rfl
@[simp] theorem State.complete_msgLen (s : State) : (s.complete).msgLen = s.msgLen := rfl
@[simp] theorem State.complete_accLen (s : State) : (s.complete).accLen = s.accLen := rfl
@[simp] theorem State.complete_opLatch (s : State) : (s.complete).opLatch = s.opLatch := rfl
@[simp] theorem State.complete_mem (s : State) : (s.complete).mem = s.mem := rfl
@[simp] theorem State.complete_work (s : State) : (s.complete).work = s.work := rfl
@[simp] theorem State.complete_acc (s : State) : (s.complete).acc = s.acc := rfl
@[simp] theorem State.complete_events (s : State) : (s.complete).events = s.events := rfl
@[simp] theorem State.complete_busData (s : State) : (s.complete).busData = s.busData := rfl
@[simp] theorem State.complete_rngDraws (s : State) : (s.complete).rngDraws = s.rngDraws := rfl
@[simp] theorem State.complete_busyReads (s : State) : (s.complete).busyReads = s.busyReads := rfl

@[simp] theorem State.raise_params (e : ErrCode) (s : State) : (s.raise e).params = s.params := rfl
@[simp] theorem State.raise_status (e : ErrCode) (s : State) : (s.raise e).status = s.status.setErr.complete := rfl
@[simp] theorem State.raise_errCode (e : ErrCode) (s : State) : (s.raise e).errCode = e := rfl
@[simp] theorem State.raise_bits (e : ErrCode) (s : State) : (s.raise e).bits = s.bits := rfl
@[simp] theorem State.raise_digestLen (e : ErrCode) (s : State) : (s.raise e).digestLen = s.digestLen := rfl
@[simp] theorem State.raise_saltLen (e : ErrCode) (s : State) : (s.raise e).saltLen = s.saltLen := rfl
@[simp] theorem State.raise_emLen (e : ErrCode) (s : State) : (s.raise e).emLen = s.emLen := rfl
@[simp] theorem State.raise_cfg (e : ErrCode) (s : State) : (s.raise e).cfg = s.cfg := rfl
@[simp] theorem State.raise_cfgSaltLen (e : ErrCode) (s : State) : (s.raise e).cfgSaltLen = s.cfgSaltLen := rfl
@[simp] theorem State.raise_saltLenOut (e : ErrCode) (s : State) : (s.raise e).saltLenOut = s.saltLenOut := rfl
@[simp] theorem State.raise_msgLen (e : ErrCode) (s : State) : (s.raise e).msgLen = s.msgLen := rfl
@[simp] theorem State.raise_accLen (e : ErrCode) (s : State) : (s.raise e).accLen = s.accLen := rfl
@[simp] theorem State.raise_opLatch (e : ErrCode) (s : State) : (s.raise e).opLatch = s.opLatch := rfl
@[simp] theorem State.raise_mem (e : ErrCode) (s : State) : (s.raise e).mem = s.mem := rfl
@[simp] theorem State.raise_work (e : ErrCode) (s : State) : (s.raise e).work = s.work := rfl
@[simp] theorem State.raise_acc (e : ErrCode) (s : State) : (s.raise e).acc = s.acc := rfl
@[simp] theorem State.raise_events (e : ErrCode) (s : State) : (s.raise e).events = s.events := rfl
@[simp] theorem State.raise_busData (e : ErrCode) (s : State) : (s.raise e).busData = s.busData := rfl
@[simp] theorem State.raise_rngDraws (e : ErrCode) (s : State) : (s.raise e).rngDraws = s.rngDraws := rfl
@[simp] theorem State.raise_busyReads (e : ErrCode) (s : State) : (s.raise e).busyReads = s.busyReads := rfl

@[simp] theorem State.acceptVerify_params (n : Nat) (s : State) : (s.acceptVerify n).params = s.params := rfl
@[simp] theorem State.acceptVerify_status (n : Nat) (s : State) : (s.acceptVerify n).status = s.status.setVok.complete := rfl
@[simp] theorem State.acceptVerify_errCode (n : Nat) (s : State) : (s.acceptVerify n).errCode = s.errCode := rfl
@[simp] theorem State.acceptVerify_bits (n : Nat) (s : State) : (s.acceptVerify n).bits = s.bits := rfl
@[simp] theorem State.acceptVerify_digestLen (n : Nat) (s : State) : (s.acceptVerify n).digestLen = s.digestLen := rfl
@[simp] theorem State.acceptVerify_saltLen (n : Nat) (s : State) : (s.acceptVerify n).saltLen = s.saltLen := rfl
@[simp] theorem State.acceptVerify_emLen (n : Nat) (s : State) : (s.acceptVerify n).emLen = s.emLen := rfl
@[simp] theorem State.acceptVerify_cfg (n : Nat) (s : State) : (s.acceptVerify n).cfg = s.cfg := rfl
@[simp] theorem State.acceptVerify_cfgSaltLen (n : Nat) (s : State) : (s.acceptVerify n).cfgSaltLen = s.cfgSaltLen := rfl
@[simp] theorem State.acceptVerify_saltLenOut (n : Nat) (s : State) : (s.acceptVerify n).saltLenOut = BitVec.ofNat 32 n := rfl
@[simp] theorem State.acceptVerify_msgLen (n : Nat) (s : State) : (s.acceptVerify n).msgLen = s.msgLen := rfl
@[simp] theorem State.acceptVerify_accLen (n : Nat) (s : State) : (s.acceptVerify n).accLen = s.accLen := rfl
@[simp] theorem State.acceptVerify_opLatch (n : Nat) (s : State) : (s.acceptVerify n).opLatch = s.opLatch := rfl
@[simp] theorem State.acceptVerify_mem (n : Nat) (s : State) : (s.acceptVerify n).mem = s.mem := rfl
@[simp] theorem State.acceptVerify_work (n : Nat) (s : State) : (s.acceptVerify n).work = [] := rfl
@[simp] theorem State.acceptVerify_acc (n : Nat) (s : State) : (s.acceptVerify n).acc = s.acc := rfl
@[simp] theorem State.acceptVerify_events (n : Nat) (s : State) : (s.acceptVerify n).events = s.events := rfl
@[simp] theorem State.acceptVerify_busData (n : Nat) (s : State) : (s.acceptVerify n).busData = s.busData := rfl
@[simp] theorem State.acceptVerify_rngDraws (n : Nat) (s : State) : (s.acceptVerify n).rngDraws = s.rngDraws := rfl
@[simp] theorem State.acceptVerify_busyReads (n : Nat) (s : State) : (s.acceptVerify n).busyReads = s.busyReads := rfl

@[simp] theorem State.rejectVerify_params (s : State) : (s.rejectVerify).params = s.params := rfl
@[simp] theorem State.rejectVerify_status (s : State) : (s.rejectVerify).status = s.status.complete := rfl
@[simp] theorem State.rejectVerify_errCode (s : State) : (s.rejectVerify).errCode = s.errCode := rfl
@[simp] theorem State.rejectVerify_bits (s : State) : (s.rejectVerify).bits = s.bits := rfl
@[simp] theorem State.rejectVerify_digestLen (s : State) : (s.rejectVerify).digestLen = s.digestLen := rfl
@[simp] theorem State.rejectVerify_saltLen (s : State) : (s.rejectVerify).saltLen = s.saltLen := rfl
@[simp] theorem State.rejectVerify_emLen (s : State) : (s.rejectVerify).emLen = s.emLen := rfl
@[simp] theorem State.rejectVerify_cfg (s : State) : (s.rejectVerify).cfg = s.cfg := rfl
@[simp] theorem State.rejectVerify_cfgSaltLen (s : State) : (s.rejectVerify).cfgSaltLen = s.cfgSaltLen := rfl
@[simp] theorem State.rejectVerify_saltLenOut (s : State) : (s.rejectVerify).saltLenOut = s.saltLenOut := rfl
@[simp] theorem State.rejectVerify_msgLen (s : State) : (s.rejectVerify).msgLen = s.msgLen := rfl
@[simp] theorem State.rejectVerify_accLen (s : State) : (s.rejectVerify).accLen = s.accLen := rfl
@[simp] theorem State.rejectVerify_opLatch (s : State) : (s.rejectVerify).opLatch = s.opLatch := rfl
@[simp] theorem State.rejectVerify_mem (s : State) : (s.rejectVerify).mem = s.mem := rfl
@[simp] theorem State.rejectVerify_work (s : State) : (s.rejectVerify).work = [] := rfl
@[simp] theorem State.rejectVerify_acc (s : State) : (s.rejectVerify).acc = s.acc := rfl
@[simp] theorem State.rejectVerify_events (s : State) : (s.rejectVerify).events = s.events := rfl
@[simp] theorem State.rejectVerify_busData (s : State) : (s.rejectVerify).busData = s.busData := rfl
@[simp] theorem State.rejectVerify_rngDraws (s : State) : (s.rejectVerify).rngDraws = s.rngDraws := rfl
@[simp] theorem State.rejectVerify_busyReads (s : State) : (s.rejectVerify).busyReads = s.busyReads := rfl

@[simp] theorem State.deliverDigest_params (d : List Byte) (s : State) : (s.deliverDigest d).params = s.params := rfl
@[simp] theorem State.deliverDigest_status (d : List Byte) (s : State) : (s.deliverDigest d).status = s.status := rfl
@[simp] theorem State.deliverDigest_errCode (d : List Byte) (s : State) : (s.deliverDigest d).errCode = s.errCode := rfl
@[simp] theorem State.deliverDigest_bits (d : List Byte) (s : State) : (s.deliverDigest d).bits = s.bits := rfl
@[simp] theorem State.deliverDigest_digestLen (d : List Byte) (s : State) : (s.deliverDigest d).digestLen = BitVec.ofNat 32 s.params.hlen := rfl
@[simp] theorem State.deliverDigest_saltLen (d : List Byte) (s : State) : (s.deliverDigest d).saltLen = s.saltLen := rfl
@[simp] theorem State.deliverDigest_emLen (d : List Byte) (s : State) : (s.deliverDigest d).emLen = s.emLen := rfl
@[simp] theorem State.deliverDigest_cfg (d : List Byte) (s : State) : (s.deliverDigest d).cfg = s.cfg := rfl
@[simp] theorem State.deliverDigest_cfgSaltLen (d : List Byte) (s : State) : (s.deliverDigest d).cfgSaltLen = s.cfgSaltLen := rfl
@[simp] theorem State.deliverDigest_saltLenOut (d : List Byte) (s : State) : (s.deliverDigest d).saltLenOut = s.saltLenOut := rfl
@[simp] theorem State.deliverDigest_msgLen (d : List Byte) (s : State) : (s.deliverDigest d).msgLen = s.msgLen := rfl
@[simp] theorem State.deliverDigest_accLen (d : List Byte) (s : State) : (s.deliverDigest d).accLen = s.accLen := rfl
@[simp] theorem State.deliverDigest_opLatch (d : List Byte) (s : State) : (s.deliverDigest d).opLatch = s.opLatch := rfl
@[simp] theorem State.deliverDigest_mem (d : List Byte) (s : State) : (s.deliverDigest d).mem = s.mem.writeBytes Buffer.digest.base d := rfl
@[simp] theorem State.deliverDigest_work (d : List Byte) (s : State) : (s.deliverDigest d).work = s.work := rfl
@[simp] theorem State.deliverDigest_acc (d : List Byte) (s : State) : (s.deliverDigest d).acc = s.acc := rfl
@[simp] theorem State.deliverDigest_events (d : List Byte) (s : State) : (s.deliverDigest d).events = s.events := rfl
@[simp] theorem State.deliverDigest_busData (d : List Byte) (s : State) : (s.deliverDigest d).busData = s.busData := rfl
@[simp] theorem State.deliverDigest_rngDraws (d : List Byte) (s : State) : (s.deliverDigest d).rngDraws = s.rngDraws := rfl
@[simp] theorem State.deliverDigest_busyReads (d : List Byte) (s : State) : (s.deliverDigest d).busyReads = s.busyReads := rfl

@[simp] theorem State.answer_params (v : Word) (s : State) : (s.answer v).params = s.params := rfl
@[simp] theorem State.answer_status (v : Word) (s : State) : (s.answer v).status = s.status := rfl
@[simp] theorem State.answer_errCode (v : Word) (s : State) : (s.answer v).errCode = s.errCode := rfl
@[simp] theorem State.answer_bits (v : Word) (s : State) : (s.answer v).bits = s.bits := rfl
@[simp] theorem State.answer_digestLen (v : Word) (s : State) : (s.answer v).digestLen = s.digestLen := rfl
@[simp] theorem State.answer_saltLen (v : Word) (s : State) : (s.answer v).saltLen = s.saltLen := rfl
@[simp] theorem State.answer_emLen (v : Word) (s : State) : (s.answer v).emLen = s.emLen := rfl
@[simp] theorem State.answer_cfg (v : Word) (s : State) : (s.answer v).cfg = s.cfg := rfl
@[simp] theorem State.answer_cfgSaltLen (v : Word) (s : State) : (s.answer v).cfgSaltLen = s.cfgSaltLen := rfl
@[simp] theorem State.answer_saltLenOut (v : Word) (s : State) : (s.answer v).saltLenOut = s.saltLenOut := rfl
@[simp] theorem State.answer_msgLen (v : Word) (s : State) : (s.answer v).msgLen = s.msgLen := rfl
@[simp] theorem State.answer_accLen (v : Word) (s : State) : (s.answer v).accLen = s.accLen := rfl
@[simp] theorem State.answer_opLatch (v : Word) (s : State) : (s.answer v).opLatch = s.opLatch := rfl
@[simp] theorem State.answer_mem (v : Word) (s : State) : (s.answer v).mem = s.mem := rfl
@[simp] theorem State.answer_work (v : Word) (s : State) : (s.answer v).work = s.work := rfl
@[simp] theorem State.answer_acc (v : Word) (s : State) : (s.answer v).acc = s.acc := rfl
@[simp] theorem State.answer_events (v : Word) (s : State) : (s.answer v).events = s.events := rfl
@[simp] theorem State.answer_busData (v : Word) (s : State) : (s.answer v).busData = v := rfl
@[simp] theorem State.answer_rngDraws (v : Word) (s : State) : (s.answer v).rngDraws = s.rngDraws := rfl
@[simp] theorem State.answer_busyReads (v : Word) (s : State) : (s.answer v).busyReads = s.busyReads := rfl

@[simp] theorem State.countBusyRead_params (s : State) : (s.countBusyRead).params = s.params := rfl
@[simp] theorem State.countBusyRead_status (s : State) : (s.countBusyRead).status = s.status := rfl
@[simp] theorem State.countBusyRead_errCode (s : State) : (s.countBusyRead).errCode = s.errCode := rfl
@[simp] theorem State.countBusyRead_bits (s : State) : (s.countBusyRead).bits = s.bits := rfl
@[simp] theorem State.countBusyRead_digestLen (s : State) : (s.countBusyRead).digestLen = s.digestLen := rfl
@[simp] theorem State.countBusyRead_saltLen (s : State) : (s.countBusyRead).saltLen = s.saltLen := rfl
@[simp] theorem State.countBusyRead_emLen (s : State) : (s.countBusyRead).emLen = s.emLen := rfl
@[simp] theorem State.countBusyRead_cfg (s : State) : (s.countBusyRead).cfg = s.cfg := rfl
@[simp] theorem State.countBusyRead_cfgSaltLen (s : State) : (s.countBusyRead).cfgSaltLen = s.cfgSaltLen := rfl
@[simp] theorem State.countBusyRead_saltLenOut (s : State) : (s.countBusyRead).saltLenOut = s.saltLenOut := rfl
@[simp] theorem State.countBusyRead_msgLen (s : State) : (s.countBusyRead).msgLen = s.msgLen := rfl
@[simp] theorem State.countBusyRead_accLen (s : State) : (s.countBusyRead).accLen = s.accLen := rfl
@[simp] theorem State.countBusyRead_opLatch (s : State) : (s.countBusyRead).opLatch = s.opLatch := rfl
@[simp] theorem State.countBusyRead_mem (s : State) : (s.countBusyRead).mem = s.mem := rfl
@[simp] theorem State.countBusyRead_work (s : State) : (s.countBusyRead).work = s.work := rfl
@[simp] theorem State.countBusyRead_acc (s : State) : (s.countBusyRead).acc = s.acc := rfl
@[simp] theorem State.countBusyRead_events (s : State) : (s.countBusyRead).events = s.events := rfl
@[simp] theorem State.countBusyRead_busData (s : State) : (s.countBusyRead).busData = s.busData := rfl
@[simp] theorem State.countBusyRead_rngDraws (s : State) : (s.countBusyRead).rngDraws = s.rngDraws := rfl
@[simp] theorem State.countBusyRead_busyReads (s : State) : (s.countBusyRead).busyReads = s.busyReads + 1 := rfl

@[simp] theorem State.withEvents_params (es : List Event) (s : State) : (s.withEvents es).params = s.params := rfl
@[simp] theorem State.withEvents_status (es : List Event) (s : State) : (s.withEvents es).status = s.status := rfl
@[simp] theorem State.withEvents_errCode (es : List Event) (s : State) : (s.withEvents es).errCode = s.errCode := rfl
@[simp] theorem State.withEvents_bits (es : List Event) (s : State) : (s.withEvents es).bits = s.bits := rfl
@[simp] theorem State.withEvents_digestLen (es : List Event) (s : State) : (s.withEvents es).digestLen = s.digestLen := rfl
@[simp] theorem State.withEvents_saltLen (es : List Event) (s : State) : (s.withEvents es).saltLen = s.saltLen := rfl
@[simp] theorem State.withEvents_emLen (es : List Event) (s : State) : (s.withEvents es).emLen = s.emLen := rfl
@[simp] theorem State.withEvents_cfg (es : List Event) (s : State) : (s.withEvents es).cfg = s.cfg := rfl
@[simp] theorem State.withEvents_cfgSaltLen (es : List Event) (s : State) : (s.withEvents es).cfgSaltLen = s.cfgSaltLen := rfl
@[simp] theorem State.withEvents_saltLenOut (es : List Event) (s : State) : (s.withEvents es).saltLenOut = s.saltLenOut := rfl
@[simp] theorem State.withEvents_msgLen (es : List Event) (s : State) : (s.withEvents es).msgLen = s.msgLen := rfl
@[simp] theorem State.withEvents_accLen (es : List Event) (s : State) : (s.withEvents es).accLen = s.accLen := rfl
@[simp] theorem State.withEvents_opLatch (es : List Event) (s : State) : (s.withEvents es).opLatch = s.opLatch := rfl
@[simp] theorem State.withEvents_mem (es : List Event) (s : State) : (s.withEvents es).mem = s.mem := rfl
@[simp] theorem State.withEvents_work (es : List Event) (s : State) : (s.withEvents es).work = s.work := rfl
@[simp] theorem State.withEvents_acc (es : List Event) (s : State) : (s.withEvents es).acc = s.acc := rfl
@[simp] theorem State.withEvents_events (es : List Event) (s : State) : (s.withEvents es).events = es := rfl
@[simp] theorem State.withEvents_busData (es : List Event) (s : State) : (s.withEvents es).busData = s.busData := rfl
@[simp] theorem State.withEvents_rngDraws (es : List Event) (s : State) : (s.withEvents es).rngDraws = s.rngDraws := rfl
@[simp] theorem State.withEvents_busyReads (es : List Event) (s : State) : (s.withEvents es).busyReads = s.busyReads := rfl

@[simp] theorem State.padCandidate_params (s : State) : (s.padCandidate).params = s.params := rfl
@[simp] theorem State.padCandidate_status (s : State) : (s.padCandidate).status = s.status := rfl
@[simp] theorem State.padCandidate_errCode (s : State) : (s.padCandidate).errCode = s.errCode := rfl
@[simp] theorem State.padCandidate_bits (s : State) : (s.padCandidate).bits = s.bits := rfl
@[simp] theorem State.padCandidate_digestLen (s : State) : (s.padCandidate).digestLen = s.digestLen := rfl
@[simp] theorem State.padCandidate_saltLen (s : State) : (s.padCandidate).saltLen = s.saltLen := rfl
@[simp] theorem State.padCandidate_emLen (s : State) : (s.padCandidate).emLen = s.emLen := rfl
@[simp] theorem State.padCandidate_cfg (s : State) : (s.padCandidate).cfg = s.cfg := rfl
@[simp] theorem State.padCandidate_cfgSaltLen (s : State) : (s.padCandidate).cfgSaltLen = s.cfgSaltLen := rfl
@[simp] theorem State.padCandidate_saltLenOut (s : State) : (s.padCandidate).saltLenOut = s.saltLenOut := rfl
@[simp] theorem State.padCandidate_msgLen (s : State) : (s.padCandidate).msgLen = s.msgLen := rfl
@[simp] theorem State.padCandidate_accLen (s : State) : (s.padCandidate).accLen = s.accLen := rfl
@[simp] theorem State.padCandidate_opLatch (s : State) : (s.padCandidate).opLatch = s.opLatch := rfl
@[simp] theorem State.padCandidate_mem (s : State) : (s.padCandidate).mem = s.mem := rfl
@[simp] theorem State.padCandidate_acc (s : State) : (s.padCandidate).acc = s.acc := rfl
@[simp] theorem State.padCandidate_events (s : State) : (s.padCandidate).events = s.events := rfl
@[simp] theorem State.padCandidate_busData (s : State) : (s.padCandidate).busData = s.busData := rfl
@[simp] theorem State.padCandidate_rngDraws (s : State) : (s.padCandidate).rngDraws = s.rngDraws := rfl
@[simp] theorem State.padCandidate_busyReads (s : State) : (s.padCandidate).busyReads = s.busyReads := rfl

@[simp] theorem State.drawSalt_params (c : Collab) (s : State) : (s.drawSalt c).params = s.params := rfl
@[simp] theorem State.drawSalt_status (c : Collab) (s : State) : (s.drawSalt c).status = s.status := rfl
@[simp] theorem State.drawSalt_errCode (c : Collab) (s : State) : (s.drawSalt c).errCode = s.errCode := rfl
@[simp] theorem State.drawSalt_bits (c : Collab) (s : State) : (s.drawSalt c).bits = s.bits := rfl
@[simp] theorem State.drawSalt_digestLen (c : Collab) (s : State) : (s.drawSalt c).digestLen = s.digestLen := rfl
@[simp] theorem State.drawSalt_saltLen (c : Collab) (s : State) : (s.drawSalt c).saltLen = s.cfgSaltLen := rfl
@[simp] theorem State.drawSalt_emLen (c : Collab) (s : State) : (s.drawSalt c).emLen = s.emLen := rfl
@[simp] theorem State.drawSalt_cfg (c : Collab) (s : State) : (s.drawSalt c).cfg = s.cfg := rfl
@[simp] theorem State.drawSalt_cfgSaltLen (c : Collab) (s : State) : (s.drawSalt c).cfgSaltLen = s.cfgSaltLen := rfl
@[simp] theorem State.drawSalt_saltLenOut (c : Collab) (s : State) : (s.drawSalt c).saltLenOut = s.saltLenOut := rfl
@[simp] theorem State.drawSalt_msgLen (c : Collab) (s : State) : (s.drawSalt c).msgLen = s.msgLen := rfl
@[simp] theorem State.drawSalt_accLen (c : Collab) (s : State) : (s.drawSalt c).accLen = s.accLen := rfl
@[simp] theorem State.drawSalt_opLatch (c : Collab) (s : State) : (s.drawSalt c).opLatch = s.opLatch := rfl
@[simp] theorem State.drawSalt_mem (c : Collab) (s : State) : (s.drawSalt c).mem = s.mem.writeBytes Buffer.salt.base (c.rng s.rngDraws s.cfgSaltLen.toNat).toList := rfl
@[simp] theorem State.drawSalt_work (c : Collab) (s : State) : (s.drawSalt c).work = s.work := rfl
@[simp] theorem State.drawSalt_acc (c : Collab) (s : State) : (s.drawSalt c).acc = s.acc := rfl
@[simp] theorem State.drawSalt_events (c : Collab) (s : State) : (s.drawSalt c).events = s.events := rfl
@[simp] theorem State.drawSalt_busData (c : Collab) (s : State) : (s.drawSalt c).busData = s.busData := rfl
@[simp] theorem State.drawSalt_rngDraws (c : Collab) (s : State) : (s.drawSalt c).rngDraws = s.rngDraws + 1 := rfl
@[simp] theorem State.drawSalt_busyReads (c : Collab) (s : State) : (s.drawSalt c).busyReads = s.busyReads := rfl

@[simp] theorem State.unmaskWork_params (c : Collab) (s : State) : (s.unmaskWork c).params = s.params := rfl
@[simp] theorem State.unmaskWork_status (c : Collab) (s : State) : (s.unmaskWork c).status = s.status := rfl
@[simp] theorem State.unmaskWork_errCode (c : Collab) (s : State) : (s.unmaskWork c).errCode = s.errCode := rfl
@[simp] theorem State.unmaskWork_bits (c : Collab) (s : State) : (s.unmaskWork c).bits = s.bits := rfl
@[simp] theorem State.unmaskWork_digestLen (c : Collab) (s : State) : (s.unmaskWork c).digestLen = s.digestLen := rfl
@[simp] theorem State.unmaskWork_saltLen (c : Collab) (s : State) : (s.unmaskWork c).saltLen = s.saltLen := rfl
@[simp] theorem State.unmaskWork_emLen (c : Collab) (s : State) : (s.unmaskWork c).emLen = s.emLen := rfl
@[simp] theorem State.unmaskWork_cfg (c : Collab) (s : State) : (s.unmaskWork c).cfg = s.cfg := rfl
@[simp] theorem State.unmaskWork_cfgSaltLen (c : Collab) (s : State) : (s.unmaskWork c).cfgSaltLen = s.cfgSaltLen := rfl
@[simp] theorem State.unmaskWork_saltLenOut (c : Collab) (s : State) : (s.unmaskWork c).saltLenOut = s.saltLenOut := rfl
@[simp] theorem State.unmaskWork_msgLen (c : Collab) (s : State) : (s.unmaskWork c).msgLen = s.msgLen := rfl
@[simp] theorem State.unmaskWork_accLen (c : Collab) (s : State) : (s.unmaskWork c).accLen = s.accLen := rfl
@[simp] theorem State.unmaskWork_opLatch (c : Collab) (s : State) : (s.unmaskWork c).opLatch = s.opLatch := rfl
@[simp] theorem State.unmaskWork_mem (c : Collab) (s : State) : (s.unmaskWork c).mem = s.mem := rfl
@[simp] theorem State.unmaskWork_acc (c : Collab) (s : State) : (s.unmaskWork c).acc = s.acc := rfl
@[simp] theorem State.unmaskWork_events (c : Collab) (s : State) : (s.unmaskWork c).events = s.events := rfl
@[simp] theorem State.unmaskWork_busData (c : Collab) (s : State) : (s.unmaskWork c).busData = s.busData := rfl
@[simp] theorem State.unmaskWork_rngDraws (c : Collab) (s : State) : (s.unmaskWork c).rngDraws = s.rngDraws := rfl
@[simp] theorem State.unmaskWork_busyReads (c : Collab) (s : State) : (s.unmaskWork c).busyReads = s.busyReads := rfl

@[simp] theorem State.hardReset_params (s : State) : s.hardReset.params = s.params := rfl
@[simp] theorem State.hardReset_status (s : State) : s.hardReset.status = (State.resetOf s.params).status := rfl
@[simp] theorem State.hardReset_errCode (s : State) : s.hardReset.errCode = (State.resetOf s.params).errCode := rfl
@[simp] theorem State.hardReset_bits (s : State) : s.hardReset.bits = (State.resetOf s.params).bits := rfl
@[simp] theorem State.hardReset_digestLen (s : State) : s.hardReset.digestLen = (State.resetOf s.params).digestLen := rfl
@[simp] theorem State.hardReset_saltLen (s : State) : s.hardReset.saltLen = (State.resetOf s.params).saltLen := rfl
@[simp] theorem State.hardReset_emLen (s : State) : s.hardReset.emLen = (State.resetOf s.params).emLen := rfl
@[simp] theorem State.hardReset_cfg (s : State) : s.hardReset.cfg = (State.resetOf s.params).cfg := rfl
@[simp] theorem State.hardReset_cfgSaltLen (s : State) : s.hardReset.cfgSaltLen = (State.resetOf s.params).cfgSaltLen := rfl
@[simp] theorem State.hardReset_saltLenOut (s : State) : s.hardReset.saltLenOut = (State.resetOf s.params).saltLenOut := rfl
@[simp] theorem State.hardReset_msgLen (s : State) : s.hardReset.msgLen = (State.resetOf s.params).msgLen := rfl
@[simp] theorem State.hardReset_accLen (s : State) : s.hardReset.accLen = (State.resetOf s.params).accLen := rfl
@[simp] theorem State.hardReset_opLatch (s : State) : s.hardReset.opLatch = (State.resetOf s.params).opLatch := rfl
@[simp] theorem State.hardReset_mem (s : State) : s.hardReset.mem = (State.resetOf s.params).mem := rfl
@[simp] theorem State.hardReset_work (s : State) : s.hardReset.work = (State.resetOf s.params).work := rfl
@[simp] theorem State.hardReset_acc (s : State) : s.hardReset.acc = (State.resetOf s.params).acc := rfl
@[simp] theorem State.hardReset_events (s : State) : s.hardReset.events = s.events := rfl
@[simp] theorem State.hardReset_busData (s : State) : s.hardReset.busData = s.busData := rfl
@[simp] theorem State.hardReset_rngDraws (s : State) : s.hardReset.rngDraws = s.rngDraws := rfl
@[simp] theorem State.hardReset_busyReads (s : State) : s.hardReset.busyReads = s.busyReads := rfl

end Sys2Proof.Machine
end

