-- ==== Sys2Proof/Laws/Commands.lean ====
section
/-! SUPPORT. Sys2Proof/Laws/Commands.lean: lengths and indices of the pure functions of the commands, and for each
command one lemma that says everything it can do. -/

namespace Sys2Proof.Machine

/-! ### Numbers -/

theorem ceil8_bounds (n : Nat) : n ≤ 8 * ceil8 n ∧ 8 * ceil8 n ≤ n + 7 := by
  unfold ceil8; omega

theorem State.blockLen_bounds (s : State) : s.bits.toNat ≤ 8 * s.blockLen ∧ 8 * s.blockLen ≤ s.bits.toNat + 7 :=
  ceil8_bounds _

theorem State.topBits_le (s : State) : s.topBits ≤ 7 := by
  have := s.blockLen_bounds
  unfold State.topBits; omega

theorem toNat_ofNat_of_le {n k : Nat} (h : n ≤ k) (hk : k < 2 ^ 32) : (BitVec.ofNat 32 n).toNat = n := by
  rw [BitVec.toNat_ofNat]; exact Nat.mod_eq_of_lt (by omega)

/-! ### Hash, mask generator, XOR masker -/

@[simp] theorem hashBytes_length (c : Collab) (hlen : Nat) (m : List Byte) : (hashBytes c hlen m).length = hlen := by
  simp [hashBytes]

@[simp] theorem mgfBlocks_length (c : Collab) (hlen : Nat) (seed : List Byte) (i k : Nat) :
    (mgfBlocks c hlen seed i k).length = k * hlen := by
  induction k generalizing i with
  | zero => simp [mgfBlocks]
  | succ k ih => simp [mgfBlocks, ih, Nat.succ_mul, Nat.add_comm]

theorem blocks_cover (n hlen : Nat) (h : 1 ≤ hlen) : n ≤ (n + hlen - 1) / hlen * hlen := by
  have h1 := Nat.div_add_mod (n + hlen - 1) hlen
  have h2 := Nat.mod_lt (n + hlen - 1) (show 0 < hlen by omega)
  rw [Nat.mul_comm] at h1
  omega

theorem mgf_length (c : Collab) (hlen : Nat) (seed : List Byte) (n : Nat) (h : 1 ≤ hlen) :
    (mgf c hlen seed n).length = n := by
  have := blocks_cover n hlen h
  simp [mgf]; omega

@[simp] theorem xorBytes_length (s t : List Byte) : (xorBytes s t).length = min s.length t.length := by
  simp [xorBytes]

theorem xorBytes_getElem (s t : List Byte) (i : Nat) (h : i < (xorBytes s t).length) :
    (xorBytes s t)[i] = s[i]'(by simp at h; omega) ^^^ t[i]'(by simp at h; omega) := by
  simp [xorBytes]

theorem xorMask_length (c : Collab) (hlen : Nat) (buf seed : List Byte) (h : 1 ≤ hlen) :
    (xorMask c hlen buf seed).length = buf.length := by
  simp [xorMask, mgf_length c hlen seed _ h]

/-! ### The layout -/

@[simp] theorem dataBlock_length (dbl : Nat) (salt : List Byte) :
    (dataBlock dbl salt).length = dbl - salt.length - 1 + 1 + salt.length := by
  simp [dataBlock]; omega

@[simp] theorem clearTop_length (t : Nat) (db : List Byte) : (clearTop t db).length = db.length := by
  cases db <;> rfl

theorem encodeBlock_length (c : Collab) (hlen ol top : Nat) (digest salt : List Byte) (h : 1 ≤ hlen)
    (hs : hlen + salt.length + 2 ≤ ol) : (encodeBlock c hlen ol top digest salt).length = ol := by
  simp [encodeBlock, xorMask_length _ _ _ _ h]; omega

@[simp] theorem hashInput_length (d s : List Byte) : (hashInput d s).length = 8 + d.length + s.length := by
  simp [hashInput]; omega

/-! ### Operands -/

@[simp] theorem State.buf_length (b : Buffer) (n : Nat) (s : State) : (s.buf b n).length = n := by simp [State.buf]
@[simp] theorem State.digestOperand_length (s : State) : s.digestOperand.length = s.digestLen.toNat := by
  simp [State.digestOperand]
@[simp] theorem State.saltOperand_length (s : State) : s.saltOperand.length = s.saltLen.toNat := by
  simp [State.saltOperand]
@[simp] theorem State.emOperand_length (s : State) : s.emOperand.length = s.emLen.toNat := by
  simp [State.emOperand]
@[simp] theorem State.msgOperand_length (s : State) : s.msgOperand.length = s.msgLen.toNat := by
  simp [State.msgOperand]

/-- Under ENCODE's preconditions the block has room for the whole structure (rule R126). -/
theorem State.EncodeReady.room {s : State} (h : s.EncodeReady) :
    s.params.hlen + s.saltLen.toNat + 2 ≤ s.blockLen := by
  have := s.blockLen_bounds
  have := h.2.1
  omega

theorem State.encodedMessage_length (c : Collab) (s : State) (hv : s.params.Valid) (h : s.EncodeReady) :
    (s.encodedMessage c).length = s.blockLen := by
  apply encodeBlock_length _ _ _ _ _ _ hv.1
  simpa using h.room

/-! ### MASK, ENCODE -/

theorem maskCommand_cases (c : Collab) (s : State) :
    ((s.params.dcap < s.digestLen.toNat ∨ s.params.emax < s.emLen.toNat) ∧ maskCommand c s = s.raise .capacity) ∨
    (s.digestLen.toNat ≤ s.params.dcap ∧ s.emLen.toNat ≤ s.params.emax ∧
      maskCommand c s = (s.storeBuf .em (xorMask c s.params.hlen s.emOperand s.digestOperand)).complete) := by
  by_cases h : s.params.dcap < s.digestLen.toNat ∨ s.params.emax < s.emLen.toNat
  · exact .inl ⟨h, by simp [maskCommand, h]⟩
  · exact .inr ⟨by omega, by omega, by simp [maskCommand, h]⟩

/-- Everything ENCODE can do: three errors in their order, or the encoded message delivered. The fourth error needs
parameters no instance has. -/
theorem encodeCommand_cases (c : Collab) (s : State) (hv : s.params.Valid) :
    (s.digestLen.toNat ≠ s.params.hlen ∧ encodeCommand c s = s.raise .digestLen) ∨
    (s.digestLen.toNat = s.params.hlen ∧ s.bits.toNat < 8 * s.params.hlen + 8 * s.saltLen.toNat + 9 ∧
      encodeCommand c s = s.raise .outputBits) ∨
    (s.digestLen.toNat = s.params.hlen ∧ 8 * s.params.hlen + 8 * s.saltLen.toNat + 9 ≤ s.bits.toNat ∧
      (s.params.emax < s.blockLen ∨ s.params.scap < s.saltLen.toNat) ∧ encodeCommand c s = s.raise .capacity) ∨
    (s.EncodeReady ∧
      encodeCommand c s = ((s.storeBuf .em (s.encodedMessage c)).setEmLen s.blockLen).complete) := by
  by_cases h1 : s.digestLen.toNat = s.params.hlen
  · by_cases h2 : s.bits.toNat < 8 * s.params.hlen + 8 * s.saltLen.toNat + 9
    · exact .inr (.inl ⟨h1, h2, by simp only [encodeCommand]; rw [if_neg (not_not.2 h1), if_pos h2]⟩)
    · by_cases h3 : s.params.emax < s.blockLen ∨ s.params.scap < s.saltLen.toNat
      · refine .inr (.inr (.inl ⟨h1, by omega, h3, ?_⟩))
        simp only [encodeCommand]
        rw [if_neg (not_not.2 h1), if_neg h2, if_pos h3]
      · have hr : s.EncodeReady := ⟨h1, by omega, by omega, by omega⟩
        refine .inr (.inr (.inr ⟨hr, ?_⟩))
        simp only [encodeCommand]
        rw [if_neg (not_not.2 h1), if_neg h2, if_neg h3, if_neg (not_not.2 (s.encodedMessage_length c hv hr))]
  · exact .inl ⟨h1, by simp [encodeCommand, h1]⟩

theorem encodeCommand_ready (c : Collab) (s : State) (hv : s.params.Valid) (h : s.EncodeReady) :
    encodeCommand c s = ((s.storeBuf .em (s.encodedMessage c)).setEmLen s.blockLen).complete := by
  rcases encodeCommand_cases c s hv with ⟨h1, -⟩ | ⟨-, h2, -⟩ | ⟨-, -, h3, -⟩ | ⟨-, h4⟩
  · exact absurd h.1 h1
  · exact absurd h.2.1 (by omega)
  · rcases h3 with h3 | h3
    · exact absurd h.2.2.1 (by omega)
    · exact absurd h.2.2.2 (by omega)
  · exact h4

/-! ### VERIFY -/

/-- The comparator's value is plain equality (rule R154). -/
theorem ctEqual_eq_true_iff (a b : List Byte) (h : a.length = b.length) : ctEqual a b = true ↔ a = b := by
  have hz : ∀ (l : List Byte) (x : Byte), l.foldl (fun acc d => acc ||| d) x = 0 ↔ x = 0 ∧ ∀ d ∈ l, d = 0 := by
    intro l
    induction l with
    | nil => simp
    | cons d t ih =>
      intro x
      simp only [List.foldl_cons, ih, List.mem_cons, forall_eq_or_imp]
      rw [show (x ||| d = 0) ↔ (x = 0 ∧ d = 0) from ?_]
      · tauto
      · constructor
        · intro hx
          constructor
          · apply BitVec.eq_of_getLsbD_eq
            intro i hi
            have := congrArg (fun v => v.getLsbD i) hx
            simp at this ⊢
            exact this.1
          · apply BitVec.eq_of_getLsbD_eq
            intro i hi
            have := congrArg (fun v => v.getLsbD i) hx
            simp at this ⊢
            exact this.2
        · rintro ⟨rfl, rfl⟩
          rfl
  unfold ctEqual
  rw [beq_iff_eq, hz]
  constructor
  · rintro ⟨-, hd⟩
    apply List.ext_getElem h
    intro i h1 h2
    have hi : i < (xorBytes a b).length := by simp; omega
    have := hd _ (List.getElem_mem hi)
    rw [xorBytes_getElem] at this
    exact BitVec.xor_eq_zero_iff.1 this
  · rintro rfl
    refine ⟨rfl, ?_⟩
    intro d hd
    obtain ⟨i, hi, rfl⟩ := List.getElem_of_mem hd
    rw [xorBytes_getElem]
    simp

/-- The scan finds the first non-zero byte, and only if it is the marker (rule R151). -/
theorem scanMarker_eq_some_iff (db : List Byte) (i : Nat) :
    scanMarker db = some i ↔ db = List.replicate i 0x00 ++ 0x01 :: db.drop (i + 1) := by
  induction db generalizing i with
  | nil => simp [scanMarker]
  | cons b bs ih =>
    cases i with
    | zero =>
      by_cases h0 : b = 0x00
      · subst h0; simp [scanMarker]
      · by_cases h1 : b = 0x01
        · simp [scanMarker, h1]
        · rw [scanMarker, if_neg h0, if_neg h1]
          simpa using h1
    | succ i =>
      by_cases h0 : b = 0x00
      · subst h0
        simp [scanMarker, List.replicate_succ, ih]
      · by_cases h1 : b = 0x01
        · simp [scanMarker, h1, List.replicate_succ]
        · rw [scanMarker, if_neg h0, if_neg h1]
          simp only [reduceCtorEq, List.replicate_succ, List.cons_append, List.cons.injEq, false_iff, not_and]
          exact fun h => absurd h h0

/-- A byte passes check 5 exactly when its unused high bits are zero (rules R16, R148). -/
theorem sigbits_le_iff (b : Byte) (n : Nat) (hn : n ≤ 8) : sigbits b ≤ n ↔ b.toNat < 2 ^ n := by
  have h : ∀ n : Fin 9, ∀ b : Byte, sigbits b ≤ n.val ↔ b.toNat < 2 ^ n.val := by decide
  exact h ⟨n, by omega⟩ b

/-- Everything VERIFY can do: one of its two completions, on the state as it stood at command start. -/
theorem verifyCommand_cases (c : Collab) (s : State) :
    verifyCommand c s = s.rejectVerify ∨ ∃ sl, verifyCommand c s = s.acceptVerify sl := by
  have hj : ∀ i, ((s.padCandidate).unmaskWork c).judgeSalt c i = s.rejectVerify ∨
      ∃ sl, ((s.padCandidate).unmaskWork c).judgeSalt c i = s.acceptVerify sl := by
    intro i
    simp only [State.judgeSalt]
    split_ifs
    · exact .inl rfl
    · exact .inr ⟨_, rfl⟩
    · exact .inl rfl
  unfold verifyCommand
  split_ifs with h1
  · simp only
    split_ifs with h2
    · exact .inl rfl
    · simp only [State.judgeLayout]
      split
      · exact .inl rfl
      · exact hj _
  · exact .inl rfl

/-! ### The wrapper -/

theorem updateCommand_cases (s : State) :
    (s.params.mcap < s.msgLen.toNat ∧ updateCommand s = s.raise .capacity) ∨
    (s.msgLen.toNat ≤ s.params.mcap ∧ updateCommand s = (s.setAcc (s.acc ++ s.msgOperand) true).complete) := by
  by_cases h : s.params.mcap < s.msgLen.toNat
  · exact .inl ⟨h, by simp [updateCommand, h]⟩
  · exact .inr ⟨by omega, by simp [updateCommand, h]⟩

theorem finalizeCommand_cases (c : Collab) (s : State) :
    (s.params.variant = .none ∧ finalizeCommand c s = s.raise .illegalCmd) ∨
    (s.params.variant = .hashing ∧
      finalizeCommand c s = ((s.setAcc [] false).deliverDigest (hashBytes c s.params.hlen s.acc)).complete) ∨
    (s.params.variant = .raw ∧ s.acc.length ≠ s.params.hlen ∧
      finalizeCommand c s = (s.setAcc [] false).raise .rawLen) ∨
    (s.params.variant = .raw ∧ s.acc.length = s.params.hlen ∧
      finalizeCommand c s = ((s.setAcc [] false).deliverDigest s.acc).complete) := by
  unfold finalizeCommand
  cases h : s.params.variant
  · exact .inl ⟨rfl, rfl⟩
  · exact .inr (.inl ⟨rfl, rfl⟩)
  · by_cases hl : s.acc.length = s.params.hlen
    · exact .inr (.inr (.inr ⟨rfl, hl, by simp [hl]⟩))
    · exact .inr (.inr (.inl ⟨rfl, hl, by simp [hl]⟩))

theorem encodeRndCommand_cases (c : Collab) (s : State) :
    (s.params.scap < s.cfgSaltLen.toNat ∧ encodeRndCommand c s = s.raise .capacity) ∨
    (s.cfgSaltLen.toNat ≤ s.params.scap ∧ encodeRndCommand c s = encodeCommand c (s.drawSalt c)) := by
  by_cases h : s.params.scap < s.cfgSaltLen.toNat
  · exact .inl ⟨h, by simp [encodeRndCommand, h]⟩
  · exact .inr ⟨by omega, by simp [encodeRndCommand, h]⟩

@[simp] theorem State.drawSalt_blockLen (c : Collab) (s : State) : (s.drawSalt c).blockLen = s.blockLen := rfl

end Sys2Proof.Machine
end

