-- ==== Sys2Proof/Laws/PerInstr.lean ====
section
/-! SUPPORT. Sys2Proof/Laws/PerInstr.lean: facts about every command as syntax, one lemma per constructor. -/

namespace Sys2Proof.Laws.CommandWord

/-- The command's word keeps the reserved field zero and carries the command's opcode (rules R80, R81), and the command
is well formed in every instance with a wrapper. -/
def Statement (i : Instr) : Prop :=
  reservedClear (encodeWord i) = true ∧ opcodeInstr (opField (encodeWord i)) = some i ∧
  i.wellFormed .hashing = true ∧ i.wellFormed .raw = true

theorem mask : Statement .mask := ⟨by decide, by decide, rfl, rfl⟩
theorem encode : Statement .encode := ⟨by decide, by decide, rfl, rfl⟩
theorem verify : Statement .verify := ⟨by decide, by decide, rfl, rfl⟩
theorem update : Statement .update := ⟨by decide, by decide, rfl, rfl⟩
theorem finalize : Statement .finalize := ⟨by decide, by decide, rfl, rfl⟩
theorem encodeRnd : Statement .encodeRnd := ⟨by decide, by decide, rfl, rfl⟩

end Sys2Proof.Laws.CommandWord
end

