-- ==== Sys2Proof/Laws/Step.lean ====
section
/-! SUPPORT. Sys2Proof/Laws/Step.lean: what a bus transaction can do, and what a step can do. -/

namespace Sys2Proof.Machine

@[simp] theorem regAt_offset (v : Variant) (r : Reg) (h : r.present v = true) : regAt v r.offset = some r := by
  revert h
  cases v <;> cases r <;> decide

/-- A register found at an offset stands there and is present (rule R23). -/
theorem regAt_eq_some {v : Variant} {a : Nat} {r : Reg} (h : regAt v a = some r) :
    r.offset = a ∧ r.present v = true := by
  have := List.find?_some h
  simpa using this

theorem wordAccess_iff (a n : Nat) : wordAccess a n = true ↔ n = 4 ∧ a % 4 = 0 ∧ a < 0x100 := by
  simp [wordAccess, and_assoc]

theorem byteAccess_iff (a n : Nat) : byteAccess a n = true ↔ n = 1 ∧ 0x100 ≤ a ∧ a < 0x3000 := by
  simp [byteAccess, and_assoc]

theorem bufferByte_iff (p : Params) (a : Nat) :
    bufferByte p a = true ↔ ∃ b : Buffer, b.base ≤ a ∧ a < b.base + b.cap p := by
  simp only [bufferByte, Buffer.holds, Bool.or_eq_true, Bool.and_eq_true, decide_eq_true_eq]
  constructor
  · rintro (((h | h) | h) | h)
    exacts [⟨_, h⟩, ⟨_, h⟩, ⟨_, h⟩, ⟨_, h⟩]
  · rintro ⟨b, h⟩
    cases b <;> tauto

/-- A capacity fits the window of its buffer (rules R11, R40). -/
theorem Buffer.cap_le (p : Params) (hv : p.Valid) (b : Buffer) :
    b.base + b.cap p ≤ (match b with | .digest => 0x200 | .msg => 0x300 | .salt => 0x2000 | .em => 0x3000) := by
  obtain ⟨h1, h2, h3, h4, h5, h6, h7, h8⟩ := hv
  cases b <;> simp only [Buffer.base, Buffer.cap] <;> (try split_ifs) <;> omega

/-- A byte of a buffer is a legal byte access and not a word access. -/
theorem Buffer.byte_access (p : Params) (hv : p.Valid) (b : Buffer) (i : Nat) (hi : i < b.cap p) :
    byteAccess (b.base + i) 1 = true ∧ wordAccess (b.base + i) 1 = false ∧ bufferByte p (b.base + i) = true := by
  have hc := b.cap_le p hv
  refine ⟨(byteAccess_iff _ _).2 ⟨rfl, ?_, ?_⟩, by simp [wordAccess], (bufferByte_iff p _).2 ⟨b, by omega, by omega⟩⟩
  · cases b <;> simp only [Buffer.base] <;> omega
  · cases b <;> simp only at hc <;> omega

/-- A read changes only what the host received and the count of undetermined reads (rules R63 to R66). -/
theorem State.busRead_frame (a n : Nat) (s : State) :
    ∃ d k, s.busRead a n = { s with busData := d, busyReads := k } := by
  unfold State.busRead State.readReg State.readWindow
  repeat' split
  all_goals exact ⟨_, _, rfl⟩

/-- A register read that no command in progress can disturb (rules R63, R242). -/
theorem State.readReg_settled (r : Reg) (s : State) (h : s.status.busy = false ∨ s.writePending r = false) :
    s.readReg r = s.answer (s.regValue r) := by
  have : (s.status.busy && s.writePending r) = false := by rcases h with h | h <;> simp [h]
  simp [State.readReg, this]

/-- A read of a register that the command in progress will write (rule R242). -/
theorem State.readReg_pending (r : Reg) (s : State) (h : s.status.busy = true) (hr : s.writePending r = true) :
    s.readReg r = (s.answer (Config.busyWord s.busyReads)).countBusyRead := by
  simp [State.readReg, h, hr]

/-- The Boolean test of the bus is the spec's account of which length registers a command writes. -/
theorem State.writesReg_iff (i : Instr) (r : Reg) (s : State) : s.writesReg i r = true ↔ s.WritesLength i r := by
  cases i <;> simp [State.writesReg, State.WritesLength, State.EncodeReady]
  intro h
  simp [h]

theorem State.writePending_iff (r : Reg) (s : State) :
    s.writePending r = true ↔ ∃ i, decode s.params.variant s.opLatch = .ok i ∧ s.WritesLength i r := by
  unfold State.writePending
  cases decode s.params.variant s.opLatch <;> simp [State.writesReg_iff]

/-- A write while busy changes nothing (rule R241). -/
theorem State.busWrite_busy (a n : Nat) (v : Word) (s : State) (h : s.status.busy = true) : s.busWrite a n v = s := by
  simp [State.busWrite, h]

/-- Everything a write can do: nothing, one byte of a buffer, or one register; the last two only while idle. -/
theorem State.busWrite_cases (a n : Nat) (v : Word) (s : State) :
    s.busWrite a n v = s ∨
    (s.status.busy = false ∧ ∃ r, regAt s.params.variant a = some r ∧ s.busWrite a n v = s.writeReg r v) ∨
    (s.status.busy = false ∧ bufferByte s.params a = true ∧
      s.busWrite a n v = { s with mem := s.mem.write a (v.setWidth 8) }) := by
  unfold State.busWrite State.writeWindow
  cases hb : s.status.busy
  · simp only [Bool.false_eq_true, if_false, true_and]
    split
    · split
      · rename_i r hr
        exact .inr (.inl ⟨r, hr, rfl⟩)
      · exact .inl rfl
    · split
      · split
        · rename_i h
          exact .inr (.inr ⟨h, rfl⟩)
        · exact .inl rfl
      · exact .inl rfl
  · exact .inl (by simp)

/-- When the core is next, a step is the core's turn on the schedule without that entry. -/
theorem step_coreNext (s : State) (h : s.CoreNext) : step s = s.taken.coreTurn := by
  cases he : s.events with
  | nil =>
    have : s.taken = s := by rw [State.taken, he]; cases s; simp_all [State.withEvents]
    rw [this]
    simp [step, he]
  | cons e es =>
    have : e = .core := by
      rcases h with h | h
      · rw [he] at h; cases h
      · rw [he] at h; simpa using h
    subst this
    rw [State.taken, he]
    simp [step, he, State.takeEvent]

theorem step_bus (s : State) (op : BusOp) (es : List Event) (h : s.events = .bus op :: es) :
    step s = .next ((s.withEvents es).busStep op) := by
  simp [step, h, State.takeEvent]

theorem step_reset (s : State) (es : List Event) (h : s.events = .reset :: es) :
    step s = .next (s.withEvents es).hardReset := by
  simp [step, h, State.takeEvent]

/-- Everything a step can do: the core's turn, a bus transaction, or reset. -/
theorem step_cases (s : State) :
    (s.CoreNext ∧ step s = s.taken.coreTurn) ∨
    (∃ op es, s.events = .bus op :: es ∧ step s = .next ((s.withEvents es).busStep op)) ∨
    (∃ es, s.events = .reset :: es ∧ step s = .next (s.withEvents es).hardReset) := by
  cases he : s.events with
  | nil =>
    have hc : s.CoreNext := .inl he
    exact .inl ⟨hc, step_coreNext s hc⟩
  | cons e es =>
    cases e with
    | bus op => exact .inr (.inl ⟨op, es, rfl, step_bus s op es he⟩)
    | core =>
      have hc : s.CoreNext := .inr (by rw [he]; rfl)
      exact .inl ⟨hc, step_coreNext s hc⟩
    | reset => exact .inr (.inr ⟨es, rfl, step_reset s es he⟩)

/-- Everything the core's turn can do: nothing when idle, else one command or the illegal-command completion. -/
theorem coreTurn_cases (s : State) :
    (s.status.busy = false ∧ s.coreTurn = .next s) ∨
    (s.status.busy = true ∧ ∃ i, decode s.params.variant s.opLatch = .ok i ∧ s.coreTurn = exec i s) ∨
    (s.status.busy = true ∧ (∃ e, decode s.params.variant s.opLatch = .error e) ∧
      s.coreTurn = .next (s.raise .illegalCmd)) := by
  cases hb : s.status.busy
  · exact .inl ⟨rfl, by simp [State.coreTurn, hb]⟩
  · cases hd : decode s.params.variant s.opLatch with
    | ok i => exact .inr (.inl ⟨rfl, i, rfl, by simp [State.coreTurn, hb, State.completion, hd]⟩)
    | error e => exact .inr (.inr ⟨rfl, ⟨e, rfl⟩, by simp [State.coreTurn, hb, State.completion, hd]⟩)

end Sys2Proof.Machine
end

