-- ==== Sys2Proof/Laws/Verify.lean ====
section
/-! SUPPORT. Sys2Proof/Laws/Verify.lean: what VERIFY's working buffer holds after each stage, in terms of the candidate,
and when its stages pass. -/

namespace Sys2Proof.Machine

/-- Check 1 leaves room for the trailer, `H` and at least one DB byte (rule R142). -/
theorem State.dbLen_split (s : State) (h : 8 * s.params.hlen + 9 ≤ s.bits.toNat) :
    1 ≤ s.dbLen ∧ s.dbLen + s.params.hlen + 1 = s.blockLen := by
  have := s.blockLen_bounds
  unfold State.dbLen
  omega

@[simp] theorem State.padCandidate_work (s : State) :
    s.padCandidate.work = s.work.writeBytes 0 s.paddedBlock := rfl
@[simp] theorem State.padCandidate_dbLen (s : State) : s.padCandidate.dbLen = s.dbLen := rfl
@[simp] theorem State.padCandidate_topBits (s : State) : s.padCandidate.topBits = s.topBits := rfl
@[simp] theorem State.unmaskWork_dbLen (c : Collab) (s : State) : (s.unmaskWork c).dbLen = s.dbLen := rfl

theorem State.paddedBlock_length (s : State) (h : s.emLen.toNat ≤ s.blockLen) :
    s.paddedBlock.length = s.blockLen := by
  simp [State.paddedBlock]; omega

/-- After padding, any part of the block in `W` is that part of the padded block (rule R147). -/
theorem State.padCandidate_readBytes (s : State) (h : s.emLen.toNat ≤ s.blockLen) (k n : Nat)
    (hk : k + n ≤ s.blockLen) :
    s.padCandidate.work.readBytes k n = (s.paddedBlock.drop k).take n := by
  have hl := s.paddedBlock_length h
  have := Memory.readBytes_writeBytes_part s.work 0 s.paddedBlock k n (by omega)
  simpa using this

theorem State.padCandidate_read_zero (s : State) (h : s.emLen.toNat ≤ s.blockLen) (h0 : 0 < s.blockLen) :
    s.padCandidate.work.read 0 = s.paddedBlock.headD 0 := by
  have h1 := s.padCandidate_readBytes h 0 1 (by omega)
  have hl := s.paddedBlock_length h
  simp only [Memory.readBytes, List.drop_zero] at h1
  match hp : s.paddedBlock with
  | [] => rw [hp] at hl; simp at hl; omega
  | b :: bs => rw [hp] at h1; simpa using h1

/-- The DB region of the padded block, unmasked and with its unused bits cleared (rules R149, R150). -/
abbrev State.unmaskedDb (c : Collab) (s : State) : List Byte :=
  clearTop s.topBits (xorMask c s.params.hlen (s.paddedBlock.take s.dbLen) s.blockHash)

/-- After unmasking, `W` holds the unmasked DB and, after it, the stored hash. -/
theorem State.unmaskWork_regions (c : Collab) (s : State) (hp : 1 ≤ s.params.hlen)
    (hb : 8 * s.params.hlen + 9 ≤ s.bits.toNat) (hn : s.emLen.toNat ≤ s.blockLen) :
    (s.padCandidate.unmaskWork c).workDb = s.unmaskedDb c ∧
    (s.padCandidate.unmaskWork c).workHash = s.blockHash ∧
    (s.unmaskedDb c).length = s.dbLen := by
  have hs := s.dbLen_split hb
  have hl := s.paddedBlock_length hn
  have hdb : s.padCandidate.workDb = s.paddedBlock.take s.dbLen := by
    have := s.padCandidate_readBytes hn 0 s.dbLen (by omega)
    simpa [State.workDb] using this
  have hh : s.padCandidate.workHash = s.blockHash := by
    have := s.padCandidate_readBytes hn s.dbLen s.params.hlen (by omega)
    simpa [State.workHash, State.blockHash] using this
  have hlen : (s.unmaskedDb c).length = s.dbLen := by
    rw [State.unmaskedDb, clearTop_length, xorMask_length _ _ _ _ hp, List.length_take, hl]
    omega
  have hw : (s.padCandidate.unmaskWork c).work = s.padCandidate.work.writeBytes 0 (s.unmaskedDb c) := by
    simp only [State.unmaskWork, hdb, hh]
    rfl
  refine ⟨?_, ?_, hlen⟩
  · have := Memory.readBytes_writeBytes s.padCandidate.work 0 (s.unmaskedDb c)
    rw [hlen] at this
    simp only [State.workDb, hw]
    exact this
  · rw [← hh]
    simp only [State.workHash, hw]
    exact Memory.readBytes_writeBytes_apart _ _ _ _ _ (.inr (by rw [hlen]; simp))

/-- The salt bytes of `W` after the marker are those of the unmasked DB (rule R152). -/
theorem State.unmaskWork_salt (c : Collab) (s : State) (hp : 1 ≤ s.params.hlen)
    (hb : 8 * s.params.hlen + 9 ≤ s.bits.toNat) (hn : s.emLen.toNat ≤ s.blockLen) (i : Nat) :
    (s.padCandidate.unmaskWork c).work.readBytes (i + 1) (s.dbLen - i - 1) = (s.unmaskedDb c).drop (i + 1) := by
  rw [← (s.unmaskWork_regions c hp hb hn).1, State.workDb, Memory.readBytes_drop]
  simp only [Nat.zero_add]
  congr 1

/-- The candidate passes the checks made before padding (rules R142 to R146). -/
theorem State.candidateAdmitted_iff (s : State) :
    s.candidateAdmitted = true ↔
      8 * s.params.hlen + 9 ≤ s.bits.toNat ∧ s.digestLen.toNat = s.params.hlen ∧
      (1 < s.emLen.toNat ∧ s.emLen.toNat ≤ s.blockLen) ∧ s.blockLen ≤ s.params.emax ∧
      s.bufByte .em (s.emLen.toNat - 1) = 0xBC := by
  simp [State.candidateAdmitted, and_assoc]

/-- A layout with the marker at `i` is the data block of the salt after it. -/
theorem dataBlock_of_scan (db : List Byte) (i : Nat) (h : scanMarker db = some i) :
    db = dataBlock db.length (db.drop (i + 1)) ∧ i < db.length := by
  have he := (scanMarker_eq_some_iff db i).1 h
  have hi : i < db.length := by
    have := congrArg List.length he
    simp at this
    omega
  refine ⟨?_, hi⟩
  conv_lhs => rw [he]
  simp only [dataBlock, List.length_drop]
  congr 2
  omega

/-- The scan of a data block finds its marker (rules R126, R151). -/
theorem scan_dataBlock (dbl : Nat) (salt : List Byte) :
    scanMarker (dataBlock dbl salt) = some (dbl - salt.length - 1) ∧
    (dataBlock dbl salt).drop (dbl - salt.length - 1 + 1) = salt := by
  have hd : (dataBlock dbl salt).drop (dbl - salt.length - 1 + 1) = salt := by
    simp [dataBlock, List.drop_append]
  refine ⟨(scanMarker_eq_some_iff _ _).2 ?_, hd⟩
  rw [hd]
  rfl

end Sys2Proof.Machine
end

