-- ==== Sys2Proof/Tests/Slice0.lean ====
section
/-! SUPPORT. Sys2Proof/Tests/Slice0.lean: small tests, and for every statement with hypotheses a named witness that meets
them. Expected results come from the spec: encodings from 30_encoding.md rule R81, vectors from 95_test_vectors.md, which
are computed with the fixture hash `TH4` of its appendix A. -/

namespace Sys2Proof.Tests

open Sys2Proof Sys2Proof.Machine

set_option maxRecDepth 20000

/-! ### Command words: rule R81, bit by bit -/

theorem test_decode_mask : decode .none 0b00000000000000000000000000000001#32 = .ok .mask := by rfl
theorem test_decode_encode : decode .none 0b00000000000000000000000000000010#32 = .ok .encode := by rfl
theorem test_decode_verify : decode .none 0b00000000000000000000000000000011#32 = .ok .verify := by rfl
theorem test_decode_update : decode .raw 0b00000000000000000000000000000100#32 = .ok .update := by rfl
theorem test_decode_finalize : decode .hashing 0b00000000000000000000000000000101#32 = .ok .finalize := by rfl
theorem test_decode_encodeRnd : decode .hashing 0b00000000000000000000000000000110#32 = .ok .encodeRnd := by rfl
/-- Vector V-C3: opcode 2 with reserved bit 4 set is not ENCODE. -/
theorem test_decode_reserved_bit : decode .none 0x00000012#32 = .error .reservedBits := by rfl
/-- Vectors V-C1, V-C2: `OP` 0 and 7 to 15. -/
theorem test_decode_reserved_opcodes : ∀ w ∈ [0, 7, 8, 9, 10, 11, 12, 13, 14, 15],
    decode .hashing (BitVec.ofNat 32 w) = .error .reservedOpcode := by decide
theorem test_table_words : (List.range 8).map (decodeTableWord 32) =
    [none, some .mask, some .encode, some .verify, some .update, some .finalize, some .encodeRnd, none] := by decide
/-- Ill-formed terms: each of the two checks refuses one (rules R80, R81). -/
theorem test_wellFormed_refuses_absent : Instr.wellFormed .none .update = false := by rfl
theorem test_reservedClear_refuses : reservedClear 0x80000003#32 = false := by rfl

/-! ### The fixture of 95_test_vectors.md -/

/-- One byte into the fixture hash `TH4` (appendix A). -/
def th4Step (q : Byte × Byte × Byte × Byte) (x : Byte) : Byte × Byte × Byte × Byte :=
  let a := q.1 + x
  let b := q.2.1 + a
  let c := q.2.2.1 ^^^ b
  (b, c, q.2.2.2 + c + 1, a)

/-- `TH4` (appendix A). -/
def th4 (m : List Byte) : List Byte :=
  let q := m.foldl th4Step (0x6A, 0x09, 0xE6, 0x67)
  [q.1, q.2.1, q.2.2.1, q.2.2.2]

/-- The fixture's collaborators; the draw is the one vectors V-W9 and V-W10 name. -/
def fixture : Collab :=
  { hash := fun _ m => Vector.ofFn (fun i => (th4 m).getD i 0)
    ctr := i2osp4
    rng := fun _ _ => Vector.ofFn (fun i => [0xA5#8, 0x5A#8].getD i 0) }

/-- Configuration F4 of section 2. -/
def f4 (v : Variant) : Params := { hlen := 4, emax := 1024, scap := 1024, dcap := 64, mcap := 64, variant := v }

/-- A command in progress with these operands in the buffers and their lengths in the registers. -/
def operands (p : Params) (digest salt em : List Byte) (bits : Word) : State :=
  { (((State.resetOf p).storeBuf .digest digest).storeBuf .salt salt).storeBuf .em em with
    digestLen := digest.length, saltLen := salt.length, emLen := em.length, bits := bits
    status := { busy := true, done := false, err := false, vok := false, accum := false } }

/-- The common digest of sections 2.2 and 2.3. -/
def digest0 : List Byte := [0x11, 0x22, 0x33, 0x44]

/-- Section 2.0. -/
theorem test_th4_abc : th4 [0x61, 0x62, 0x63] = [0xBD, 0x03, 0x3A, 0xCB] := by decide

/-- Vector V-MK3. -/
theorem test_mask_three_blocks :
    (maskCommand fixture
      (operands (f4 .none) [0xDE, 0xAD, 0xBE, 0xEF] [] [0xFF, 0, 0xFF, 0, 0xFF, 0, 0xFF, 0, 0xFF] 0)).buf .em 9 =
      [0x98, 0xA5, 0xAE, 0xB7, 0x97, 0xAA, 0xA9, 0xB8, 0x96] := by decide

/-- Vector V-M6: a seed length other than `HLEN` is legal for the mask. -/
theorem test_mgf_short_seed : mgf fixture 4 [0xDE, 0xAD] 6 = [0xA8, 0xF5, 0x01, 0xAB, 0xA9, 0xF4] := by decide

/-- Vector V-E4: one padding byte and 7 unused bits. -/
theorem test_encode_top_bits :
    (encodeCommand fixture (operands (f4 .none) digest0 [0xA5, 0x5A] [] 65)).buf .em 9 =
      [0x01, 0x3B, 0x67, 0x5B, 0xB6, 0xD5, 0x19, 0x8F, 0xBC] := by decide

/-- Vector V-E13: the bound does not wrap. -/
theorem test_encode_no_wrap :
    (encodeCommand fixture
      { operands (f4 .none) digest0 [] [] 0xFFFFFFFF with saltLen := 0xFFFFFFFF }).errCode.number = 2 := by decide

/-- Vector V-V8: a dropped leading zero byte. -/
theorem test_verify_dropped_zero :
    let t := verifyCommand fixture (operands (f4 .none) digest0 [] [0x6F, 0xED, 0x7F, 0x6C, 0xD2, 0x71, 0xEA, 0xBC] 65)
    t.status.word = 0x0000000A ∧ t.saltLenOut = 2 ∧ t.emLen = 8 := by decide

/-- Vector V-V12: the same block fails only by the salt-length policy, without an error. -/
theorem test_verify_policy :
    let t := verifyCommand fixture
      { operands (f4 .none) digest0 [] [0xE4, 0x9F, 0x98, 0xB6, 0xD5, 0x19, 0x8F, 0xBC] 64 with
        cfg := 1, cfgSaltLen := 3 }
    t.status.word = 0x00000002 ∧ t.saltLenOut = 0 ∧ t.errCode.word = 0 := by decide

/-- A wrapper with `acc` accumulated and `msg` in the MSG buffer. -/
def wrapped (v : Variant) (acc msg : List Byte) : State :=
  { (State.resetOf (f4 v)).storeBuf .msg msg with
    acc := acc, accLen := accLenOf acc, msgLen := msg.length
    status := { busy := true, done := false, err := false, vok := false, accum := true } }

/-- Vector V-W1, second UPDATE. -/
theorem test_update_appends :
    let t := updateCommand (wrapped .hashing [0x61, 0x62] [0x63])
    t.accLen = 3 ∧ t.acc = [0x61, 0x62, 0x63] ∧ t.status.word = 0x00000012 := by decide

/-- Vector V-W7. -/
theorem test_update_too_long :
    let t := updateCommand { wrapped .raw [] [] with msgLen := 65 }
    t.errCode.word = 5 ∧ t.accLen = 0 ∧ t.status.err = true := by decide

/-- Vector V-W1, FINALIZE. -/
theorem test_finalize_hashes :
    let t := finalizeCommand fixture (wrapped .hashing [0x61, 0x62, 0x63] [])
    t.buf .digest 4 = [0xBD, 0x03, 0x3A, 0xCB] ∧ t.digestLen = 4 ∧ t.accLen = 0 ∧ t.status.word = 0x00000002 := by
  decide

/-- Vector V-W4: three bytes are not `HLEN` bytes; the buffer is drained all the same. -/
theorem test_finalize_raw_length :
    let t := finalizeCommand fixture (wrapped .raw [0x11, 0x22, 0x33] [])
    t.errCode.word = 3 ∧ t.accLen = 0 ∧ t.status.accum = false ∧ t.digestLen = 0 := by decide

/-- Vector V-W9. -/
theorem test_encodeRnd_result :
    let t := encodeRndCommand fixture { operands (f4 .hashing) digest0 [] [] 64 with cfgSaltLen := 2 }
    t.buf .salt 2 = [0xA5, 0x5A] ∧ t.saltLen = 2 ∧ t.emLen = 8 ∧
      t.buf .em 8 = [0xE4, 0x9F, 0x98, 0xB6, 0xD5, 0x19, 0x8F, 0xBC] := by decide

/-- Vector V-W10: the draw stays although ENCODE then fails. -/
theorem test_encodeRnd_error_keeps_draw :
    let t := encodeRndCommand fixture { operands (f4 .raw) digest0 [] [] 56 with cfgSaltLen := 2 }
    t.errCode.word = 2 ∧ t.buf .salt 2 = [0xA5, 0x5A] ∧ t.saltLen = 2 ∧ t.emLen = 0 := by decide

/-! ### Witnesses: every statement's hypotheses are met, each clause at a boundary of its range -/

/-- A small instance, and the smallest and the largest the spec allows (rules R7, R11). -/
def small (v : Variant) : Params := { hlen := 4, emax := 16, scap := 4, dcap := 8, mcap := 4, variant := v }
def least : Params := { hlen := 1, emax := 3, scap := 0, dcap := 1, mcap := 1, variant := .none }
def largest : Params := { hlen := 256, emax := 4096, scap := 4096, dcap := 256, mcap := 256, variant := .raw }

/-- An idle core, and one with the word `w` in progress, with this schedule. -/
def idle (v : Variant) (es : List Event) : State := { State.resetOf (small v) with events := es }
def running (v : Variant) (w : Word) (es : List Event) : State := (idle v es).startCommand w

theorem small_valid (v : Variant) : (small v).Valid := by cases v <;> decide

/-- A command in progress on empty buffers, with these lengths: bits, digest, salt (asked for and given), block. -/
def sized (v : Variant) (bits digestLen saltLen emLen : Word) : State :=
  { (State.resetOf (small v)).startCommand 0 with
    bits := bits, digestLen := digestLen, saltLen := saltLen, emLen := emLen, cfg := 1, cfgSaltLen := saltLen }

theorem witness_StepRunsDecodedCommand :
    (running .raw 6 [.core]).CoreNext ∧ (running .none 1 []).CoreNext ∧
    (running .raw 6 [.core]).status.busy = true ∧ (running .none 1 []).status.busy = true ∧
    decode .raw (running .raw 6 [.core]).opLatch = .ok .encodeRnd ∧
    decode .none (running .none 1 []).opLatch = .ok .mask := by decide

theorem witness_CommandStart : ∃ (s : State) (v : Word) (es : List Event),
    s.events = .bus (.write 0x000 4 v) :: es ∧ s.status.busy = false :=
  ⟨idle .none [.bus (.write 0x000 4 2)], 2, [], by decide⟩

theorem witness_IllegalCommandReported : ∀ x ∈ [(16#32, Variant.raw), (0, .hashing), (7, .raw), (15, .raw), (4, .none), (6, .none)],
    ∃ s : State, s.events = .bus (.write 0x000 4 x.1) :: .core :: [] ∧ s.status.busy = false ∧
      (x.1.toNat / 16 ≠ 0 ∨ x.1.toNat % 16 = 0 ∨ 7 ≤ x.1.toNat % 16 ∨
        (4 ≤ x.1.toNat % 16 ∧ s.params.variant = .none)) :=
  fun x hx => ⟨idle x.2 [.bus (.write 0x000 4 x.1), .core], rfl, rfl, by revert x; decide⟩

theorem witness_IdleCoreStill : (idle .none []).CoreNext ∧ (idle .none []).status.busy = false := by decide

theorem witness_CommandInputsFrozen : ∃ (ops : List BusOp) (s : State) (es : List Event), s.status.busy = true ∧
    s.events = ops.map Event.bus ++ Event.core :: es :=
  ⟨[.write 0x00C 4 0, .read 0x018 4], running .none 2 [.bus (.write 0x00C 4 0), .bus (.read 0x018 4), .core], [], by decide⟩

theorem witness_ResetFromAnyState : ∃ (s : State) (es : List Event), s.events = .reset :: es ∧ s.status.busy = true :=
  ⟨running .none 3 [.reset], [], by decide⟩

/-- The premise `Params.Valid`, at both ends of its ranges (ResetHasInvariant, CommandFrames and all the others). -/
theorem witness_valid_params : least.Valid ∧ largest.Valid ∧ (small .hashing).Valid ∧ Config.params.Valid := by decide

theorem witness_StepKeepsInvariant : ∃ s t : State, s.Inv ∧ step s = .next t ∧ s.status.busy = true :=
  ⟨running .raw 4 [], updateCommand (running .raw 4 []), by decide, rfl, rfl⟩

theorem witness_ParametersConstant : ∃ s t : State, step s = .next t :=
  ⟨running .raw 4 [], updateCommand (running .raw 4 []), rfl⟩

/-- One step of each kind that touches the accumulator: UPDATE, FINALIZE, reset. -/
theorem witness_AccumulatorOwners :
    (∃ s t : State, step s = .next t ∧ t.status.accum ≠ s.status.accum) ∧
    (∃ s t : State, step s = .next t ∧ t.acc ≠ s.acc) ∧ (∃ s t : State, step s = .next t ∧ t.accLen ≠ s.accLen) :=
  ⟨⟨running .raw 4 [], updateCommand (running .raw 4 []), rfl, by decide⟩,
   ⟨{ wrapped .raw [1] [] with opLatch := 5 }, finalizeCommand collab { wrapped .raw [1] [] with opLatch := 5 }, rfl,
    by decide⟩,
   ⟨{ wrapped .raw [1] [] with events := [.reset] }, (wrapped .raw [1] []).hardReset, rfl, by decide⟩⟩

theorem witness_WritesWhileBusyLost : ∃ (s : State) (a n : Nat) (v : Word) (es : List Event),
    s.events = .bus (.write a n v) :: es ∧ s.status.busy = true :=
  ⟨running .none 2 [.bus (.write 0x00C 4 0)], 0x00C, 4, 0, [], by decide⟩

/-- Misaligned, a word at the windows, a byte among the registers, two bytes, past the end (vector V-C9 among them). -/
theorem witness_IllegalAccessRefused : ∀ x ∈ [(0x002, 4), (0x100, 4), (0x00C, 1), (0x2000, 2), (0x3000, 1), (0, 0)],
    ¬ ((x.2 = 4 ∧ x.1 % 4 = 0 ∧ x.1 < 0x100) ∨ (x.2 = 1 ∧ 0x100 ≤ x.1 ∧ x.1 < 0x3000)) ∧
    (idle .none [.bus (.write x.1 x.2 0x40)]).events = [.bus (.write x.1 x.2 0x40)] ∧
    (idle .none [.bus (.read x.1 x.2)]).events = [.bus (.read x.1 x.2)] := by decide

theorem witness_ReadsHaveNoSideEffect : ∃ (s : State) (a n : Nat) (es : List Event),
    s.events = .bus (.read a n) :: es ∧ s.status.busy = true :=
  ⟨running .none 2 [.bus (.read 0x2000 1)], 0x2000, 1, [], by decide⟩

/-- Every clause of RegisterWrites and of ReadOnlyWritesIgnored has a state: an idle core and one word write. -/
theorem witness_RegisterWrites : ∀ a : Nat, ∀ u : Variant, ∃ s : State,
    s.events = .bus (.write a 4 0xFFFFFFFF) :: [] ∧ s.status.busy = false ∧ s.params.variant = u :=
  fun a u => ⟨idle u [.bus (.write a 4 0xFFFFFFFF)], rfl, rfl, rfl⟩

theorem witness_ReadOnlyWritesIgnored : ∀ a ∈ [0x004, 0x008, 0x024, 0x02C, 0x0FC],
    (idle .none [.bus (.write a 4 1)]).events = [.bus (.write a 4 1)] ∧ a % 4 = 0 ∧
    (a = 0x004 ∨ a = 0x008 ∨ a = 0x024 ∨ (0x02C ≤ a ∧ a < 0x100)) := by decide

/-- Every clause of RegisterReads and of ParameterReads has a state: one word read, of an idle core or a busy one. -/
theorem witness_RegisterReads : ∀ a : Nat, ∀ u : Variant,
    (∃ s : State, s.events = .bus (.read a 4) :: [] ∧ s.status.busy = false ∧ s.params.variant = u ∧ s.params.Valid) ∧
    (∃ s : State, s.events = .bus (.read a 4) :: [] ∧ s.status.busy = true ∧ s.params.variant = u ∧ s.params.Valid) :=
  fun a u => ⟨⟨idle u [.bus (.read a 4)], rfl, rfl, rfl, small_valid u⟩,
    ⟨running u 2 [.bus (.read a 4)], rfl, rfl, rfl, small_valid u⟩⟩

/-- The first and the last byte of each buffer. -/
theorem witness_BufferWriteThenRead : ∀ x ∈ [(Buffer.digest, 0), (.digest, 7), (.msg, 3), (.salt, 3), (.em, 0), (.em, 15)],
    ∃ s : State, s.params.Valid ∧ x.2 < Buffer.cap s.params x.1 ∧ s.status.busy = false ∧
      s.events = .bus (.write (x.1.base + x.2) 1 0x1A5) :: .bus (.read (x.1.base + x.2) 1) :: [] :=
  fun x hx => ⟨idle .raw [.bus (.write (x.1.base + x.2) 1 0x1A5), .bus (.read (x.1.base + x.2) 1)], small_valid .raw,
    by revert x; decide, rfl, rfl⟩

/-- The first offset past each buffer and the last of the window region; an absent MSG buffer's first offset too. -/
theorem witness_ReservedWindow : ∀ a ∈ [0x108, 0x200, 0x1004, 0x2010, 0x2FFF],
    ∃ s : State, 0x100 ≤ a ∧ a < 0x3000 ∧ (∀ b : Buffer, a < b.base ∨ b.base + Buffer.cap s.params b ≤ a) ∧
      s.events = .bus (.read a 1) :: [] :=
  fun a ha => ⟨idle .none [.bus (.read a 1)], by revert a; decide, by revert a; decide,
    by intro b; revert a; cases b <;> decide, rfl⟩

theorem witness_BusyBufferReadFree : ∃ (s : State) (b : Buffer) (i : Nat) (es : List Event), s.params.Valid ∧
    i < Buffer.cap s.params b ∧ s.status.busy = true ∧ s.events = .bus (.read (b.base + i) 1) :: es :=
  ⟨running .none 2 [.bus (.read (0x2000 + 15) 1)], .em, 15, [], by decide⟩

/-- The command word `w` in progress on `s`, and the host about to read register `r`. -/
def busyRead (s : State) (w : Word) (r : Reg) : State := { s with opLatch := w, events := [.bus (.read r.offset 4)] }

/-- A command in progress with `n` bytes to append. -/
def appending (n : Word) : State := { sized .raw 0 0 0 0 with msgLen := n }

/-- Commands that will write the register read, each at the edge of its success. -/
def writing : List (State × Word × Reg) :=
  [(sized .none 57 4 2 0, 2, .emLen), (appending 4, 4, .accLen), (sized .raw 0 0 0 0, 5, .accLen),
   (sized .hashing 0 0 0 0, 5, .digestLen), (sized .raw 0 0 4 0, 6, .saltLen), (sized .raw 128 4 2 0, 6, .emLen)]

/-- Commands that will not: they fail just beyond those edges, or are of another kind. -/
def notWriting : List (State × Word × Reg) :=
  [(sized .none 56 4 2 0, 2, .emLen), (sized .none 57 3 2 0, 2, .emLen), (appending 5, 4, .accLen),
   (sized .raw 0 0 0 0, 5, .digestLen), (sized .raw 0 0 5 0, 6, .saltLen), (sized .raw 129 4 2 0, 6, .emLen),
   (sized .raw 64 4 2 8, 3, .emLen), (sized .none 57 4 2 0, 2, .status)]

theorem witness_BusyRegisterReads :
    (∀ x ∈ writing, x.2.2.present (busyRead x.1 x.2.1 x.2.2).params.variant = true ∧
      (busyRead x.1 x.2.1 x.2.2).status.busy = true ∧
      ∃ i, decode (busyRead x.1 x.2.1 x.2.2).params.variant (busyRead x.1 x.2.1 x.2.2).opLatch = .ok i ∧
        (busyRead x.1 x.2.1 x.2.2).WritesLength i x.2.2) ∧
    (∀ x ∈ notWriting, x.2.2.present (busyRead x.1 x.2.1 x.2.2).params.variant = true ∧
      (busyRead x.1 x.2.1 x.2.2).status.busy = true ∧
      ∀ i, decode (busyRead x.1 x.2.1 x.2.2).params.variant (busyRead x.1 x.2.1 x.2.2).opLatch = .ok i →
        ¬ (busyRead x.1 x.2.1 x.2.2).WritesLength i x.2.2) := by
  have h1 : ∀ x ∈ writing, x.2.2.present (busyRead x.1 x.2.1 x.2.2).params.variant = true ∧
      (busyRead x.1 x.2.1 x.2.2).status.busy = true ∧ (busyRead x.1 x.2.1 x.2.2).writePending x.2.2 = true := by decide
  have h2 : ∀ x ∈ notWriting, x.2.2.present (busyRead x.1 x.2.1 x.2.2).params.variant = true ∧
      (busyRead x.1 x.2.1 x.2.2).status.busy = true ∧ (busyRead x.1 x.2.1 x.2.2).writePending x.2.2 = false := by decide
  refine ⟨fun x hx => ⟨(h1 x hx).1, (h1 x hx).2.1, (State.writePending_iff _ _).1 (h1 x hx).2.2⟩,
    fun x hx => ⟨(h2 x hx).1, (h2 x hx).2.1, fun i hi hw => ?_⟩⟩
  have h := (State.writePending_iff _ _).2 ⟨i, hi, hw⟩
  rw [(h2 x hx).2.2] at h
  cases h

/-- An error completion of MASK and one of ENCODE_RND after its draw. -/
theorem witness_ErrorsChangeNoBuffer :
    (∃ s t : State, s.params.Valid ∧ s.status.err = false ∧ exec .mask s = .next t ∧ t.status.err = true) ∧
    (∃ s t : State, s.params.Valid ∧ s.status.err = false ∧ exec .encodeRnd s = .next t ∧ t.status.err = true ∧
      s.cfgSaltLen.toNat ≤ s.params.scap) :=
  ⟨⟨sized .raw 64 4 2 17, _, by decide, rfl, rfl, by decide⟩,
   ⟨sized .raw 56 4 2 0, _, by decide, rfl, rfl, by decide, by decide⟩⟩

/-- The core's three commands without a wrapper, and the wrapper's three with each. -/
theorem witness_CompletionKinds : ∀ x ∈ [(Variant.none, Instr.mask), (.none, .encode), (.none, .verify),
      (.hashing, .update), (.raw, .finalize), (.raw, .encodeRnd)],
    (sized x.1 64 4 2 8).params.Valid ∧ x.2.wellFormed (sized x.1 64 4 2 8).params.variant = true ∧
    (sized x.1 64 4 2 8).InProgress := by decide

/-- MgfIsHashStream and MgfShorterIsBeginning: the last byte of a mask, and a mask as long as the other. -/
theorem witness_MgfIsHashStream : ∃ hlen n m j : Nat, 1 ≤ hlen ∧ j < n ∧ n ≤ m ∧ (mgf fixture hlen [] m).length = m :=
  ⟨4, 5, 5, 4, by decide⟩

/-- MaskResult and MaskTwiceRestores: both operands of MASK as long as their buffers. -/
theorem witness_MaskResult : ∃ s : State, s.params.Valid ∧ s.mem.wf = true ∧ s.digestLen.toNat = s.params.dcap ∧
    s.emLen.toNat = s.params.emax :=
  ⟨sized .none 64 8 2 16, by decide⟩

/-- Each operand one byte longer than its buffer. -/
theorem witness_MaskCapacity : (∃ s : State, s.params.dcap < s.digestLen.toNat ∧ s.emLen.toNat ≤ s.params.emax) ∧
    (∃ s : State, s.params.emax < s.emLen.toNat ∧ s.digestLen.toNat ≤ s.params.dcap) :=
  ⟨⟨sized .none 64 9 2 16, by decide⟩, ⟨sized .none 64 8 2 17, by decide⟩⟩

theorem witness_EncodeDigestLength : ∃ s : State, s.digestLen.toNat ≠ s.params.hlen :=
  ⟨sized .none 64 5 2 0, by decide⟩

/-- One bit short, by a small salt and by one whose 32-bit sum would wrap (exactly enough: witness_EncodeResult). -/
theorem witness_EncodeOutputBits : ∀ s ∈ [sized .none 56 4 2 0, sized .none 0xFFFFFFFF 4 0xFFFFFFFF 0],
    s.digestLen.toNat = s.params.hlen ∧ s.bits.toNat < 8 * s.params.hlen + 8 * s.saltLen.toNat + 9 := by decide

/-- A block of 17 bytes, and a salt of 5. -/
theorem witness_EncodeCapacity : ∀ s ∈ [sized .none 129 4 2 0, sized .none 81 4 5 0],
    s.digestLen.toNat = s.params.hlen ∧ 8 * s.params.hlen + 8 * s.saltLen.toNat + 9 ≤ s.bits.toNat ∧
      (s.params.emax < (s.bits.toNat + 7) / 8 ∨ s.params.scap < s.saltLen.toNat) := by decide

/-- The minimum number of bits, and the block that fills the EM buffer with the salt that fills the SALT buffer. -/
theorem witness_EncodeResult : ∀ s ∈ [sized .none 57 4 2 0, sized .none 128 4 4 0],
    s.params.Valid ∧ s.EncodeReady := by decide

theorem witness_RoundTrip : ∃ s : State, s.params.Valid ∧ s.EncodeReady ∧
    (s.cfg.getLsbD 0 = true ∧ s.cfgSaltLen = s.saltLen) :=
  ⟨sized .none 57 4 2 0, by decide⟩

/-- Each of the early checks failing: bits, digest length, the two length bounds, capacity, trailer
(check 5: witness_VerifyEarlyChecks_topBits). -/
theorem witness_VerifyEarlyChecks :
    (sized .none 40 4 0 6).bits.toNat < 8 * 4 + 9 ∧ (sized .none 64 5 0 6).digestLen.toNat ≠ 4 ∧
    (sized .none 64 4 0 1).emLen.toNat ≤ 1 ∧ (64 + 7) / 8 < (sized .none 64 4 0 9).emLen.toNat ∧
    (sized .none 129 4 0 6).params.emax < (129 + 7) / 8 ∧ (sized .none 64 4 0 6).bufByte .em (6 - 1) ≠ 0xBC := by decide

/-- Check 5 failing alone, with four unused bits and with one (vectors V-V6, V-V25). -/
theorem witness_VerifyEarlyChecks_topBits :
    let s := operands (small .none) digest0 [] [0x14, 0x9F, 0x98, 0xB6, 0xD5, 0x19, 0x8F, 0xBC] 60
    let u := operands (small .none) digest0 [] [0xE4, 0x9F, 0x98, 0xB6, 0xD5, 0x19, 0x8F, 0xBC] 63
    s.candidateAdmitted = true ∧ s.emLen.toNat = (s.bits.toNat + 7) / 8 ∧
    2 ^ (8 - (8 * ((s.bits.toNat + 7) / 8) - s.bits.toNat)) ≤ (s.bufByte .em 0).toNat ∧
    u.candidateAdmitted = true ∧ u.emLen.toNat = (u.bits.toNat + 7) / 8 ∧
    2 ^ (8 - (8 * ((u.bits.toNat + 7) / 8) - u.bits.toNat)) ≤ (u.bufByte .em 0).toNat := by decide

/-! A block that VERIFY accepts, whatever the hash: `HLEN = 1`, no salt, 17 bits, so that DB is one byte of one used bit. -/

/-- The hash byte and the mask byte of that block. -/
def acceptedHash : Byte := (hashBytes collab 1 (hashInput [0] [])).getD 0 0
def acceptedMask : Byte := (mgf collab 1 [acceptedHash] 1).getD 0 0

/-- VERIFY in progress on that block, with the exact salt length 0 required. -/
def accepted : State :=
  { ((State.resetOf least).startCommand 3).storeBuf .em [(1 ^^^ acceptedMask) &&& 1, acceptedHash, 0xBC] with
    bits := 17, digestLen := 1, emLen := 3, cfg := 1 }

theorem one_byte (l : List Byte) (h : l.length = 1) : l = [l.getD 0 0] := by
  obtain ⟨x, rfl⟩ := List.length_eq_one_iff.1 h
  rfl

theorem accepted_emOperand : accepted.emOperand = [(1 ^^^ acceptedMask) &&& 1, acceptedHash, 0xBC] :=
  Memory.readBytes_writeBytes [] 0x2000 _

theorem accepted_paddedBlock : accepted.paddedBlock = [(1 ^^^ acceptedMask) &&& 1, acceptedHash, 0xBC] :=
  accepted_emOperand

theorem accepted_digestOperand : accepted.digestOperand = [0] := by
  show Memory.readBytes (Memory.writeBytes [] 0x2000 _) 0x100 1 = _
  rw [Memory.readBytes_writeBytes_apart _ _ _ _ _ (.inl (by decide))]
  rfl

theorem accepted_blockHash : accepted.blockHash = [acceptedHash] := by
  rw [State.blockHash, accepted_paddedBlock]
  rfl

theorem accepted_unmasked : accepted.unmaskedDb collab = [1] := by
  have hm : mgf collab 1 [acceptedHash] 1 = [acceptedMask] := one_byte _ (mgf_length _ _ _ _ (Nat.le_refl 1))
  have hx : ∀ m : Byte, (((1 ^^^ m) &&& 1) ^^^ m) &&& topMask 7 = 1 := by decide
  rw [State.unmaskedDb, accepted_blockHash, accepted_paddedBlock]
  show clearTop 7 (xorBytes [(1 ^^^ acceptedMask) &&& 1] (mgf collab 1 [acceptedHash] 1)) = [1]
  rw [hm]
  exact congrArg (fun b => [b]) (hx acceptedMask)

theorem accepted_hash : accepted.blockHash = hashBytes collab accepted.params.hlen (hashInput accepted.digestOperand []) := by
  rw [accepted_blockHash, accepted_digestOperand]
  exact (one_byte _ (hashBytes_length collab 1 _)).symm

theorem accepted_trailer : accepted.bufByte .em (accepted.emLen.toNat - 1) = 0xBC :=
  Memory.read_writeBytes_inside [] 0x2000 [(1 ^^^ acceptedMask) &&& 1, acceptedHash, 0xBC] 2 (by decide)

theorem accepted_firstByte : (accepted.paddedBlock.headD 0).toNat < 2 ^ (8 - accepted.topBits) := by
  have hx : ∀ m : Byte, (((1 ^^^ m) &&& 1) : Byte).toNat < 2 ^ (8 - 7) := by decide
  rw [accepted_paddedBlock]
  exact hx acceptedMask

/-- Both cases of VerifyDecidesNineConditions: a block that is accepted, and one that is not. -/
theorem witness_VerifyDecidesNineConditions :
    (∃ (s : State) (sl : Nat), s.params.Valid ∧ s.Accepts collab sl) ∧
    (∃ s : State, s.params.Valid ∧ ∀ sl, ¬ s.Accepts collab sl) :=
  ⟨⟨accepted, 0, by decide, by decide, rfl, by decide, by decide, accepted_trailer, accepted_firstByte,
      [], rfl, accepted_unmasked, accepted_hash, fun _ => rfl⟩,
   ⟨sized .none 40 4 0 6, by decide, fun _ h => absurd h.1 (by decide)⟩⟩

theorem accepted_verify : verifyCommand collab accepted = accepted.acceptVerify 0 := by
  have hb : 8 * accepted.params.hlen + 9 ≤ accepted.bits.toNat := by decide
  have hn : accepted.emLen.toNat ≤ accepted.blockLen := by decide
  have h0 := accepted.padCandidate_read_zero hn (by decide)
  have hs := (sigbits_le_iff _ (8 - accepted.topBits) (by decide)).2 accepted_firstByte
  obtain ⟨r1, r2, -⟩ := accepted.unmaskWork_regions collab (by decide) hb hn
  have hsalt := accepted.unmaskWork_salt collab (by decide) hb hn 0
  rw [accepted_unmasked] at r1 hsalt
  have he := (ctEqual_eq_true_iff _ _ (by simp [accepted_blockHash]; rfl)).2 accepted_hash
  rw [verifyCommand, if_pos (accepted.candidateAdmitted_iff.2 ⟨hb, rfl, by decide, by decide, accepted_trailer⟩)]
  simp only [State.padCandidate_topBits, h0]
  rw [if_neg (by omega), State.judgeLayout, r1]
  show State.judgeSalt collab 0 _ = _
  simp only [State.judgeSalt, State.unmaskWork_dbLen, State.padCandidate_dbLen, hsalt, r2]
  exact (if_pos he).trans rfl

/-- A step to a true completion, and one to a false one (VerifySaltPolicy, VerifyFailuresAlike). -/
theorem witness_VerifySaltPolicy :
    (∃ s t : State, s.InProgress ∧ s.cfg.getLsbD 0 = true ∧ exec .verify s = .next t ∧ t.status.vok = true) ∧
    (∃ s t : State, s.InProgress ∧ exec .verify s = .next t ∧ t.status.vok = false) :=
  ⟨⟨accepted, accepted.acceptVerify 0, by decide, by decide, congrArg Host.Outcome.next accepted_verify, rfl⟩,
   ⟨sized .none 40 4 0 6, (sized .none 40 4 0 6).rejectVerify, by decide, rfl, rfl⟩⟩

theorem witness_LeadingZeroMayBeDropped : ∃ s v : State, s.params.Valid ∧ s.InProgress ∧ v.InProgress ∧
    s.emLen.toNat = v.emLen.toNat + 1 ∧ 1 < v.emLen.toNat ∧ s.emLen.toNat ≤ (s.bits.toNat + 7) / 8 ∧
    s.bufByte .em 0 = 0 ∧ (∀ j, j < v.emLen.toNat → v.bufByte .em j = s.bufByte .em (j + 1)) ∧
    v.params = s.params ∧ v.bits = s.bits ∧ v.digestLen = s.digestLen ∧ v.digestOperand = s.digestOperand ∧
    v.cfg = s.cfg ∧ v.cfgSaltLen = s.cfgSaltLen :=
  ⟨operands (small .none) digest0 [] [0, 0x6F, 0xED, 0x7F, 0x6C, 0xD2, 0x71, 0xEA, 0xBC] 65,
   operands (small .none) digest0 [] [0x6F, 0xED, 0x7F, 0x6C, 0xD2, 0x71, 0xEA, 0xBC] 65, by decide⟩

/-- A message as long as the MSG buffer, and one byte longer. -/
theorem witness_UpdateResult :
    (∃ s : State, s.params.variant ≠ .none ∧ s.msgLen.toNat = s.params.mcap) ∧
    (∃ s : State, s.params.variant ≠ .none ∧ s.msgLen.toNat = s.params.mcap + 1) :=
  ⟨⟨{ State.resetOf (small .raw) with msgLen := 4 }, by decide⟩, ⟨{ State.resetOf (small .raw) with msgLen := 5 }, by decide⟩⟩

theorem witness_FinalizeHashing : (wrapped .hashing [] []).params.Valid ∧
    (wrapped .hashing [] []).params.variant = .hashing := by decide

theorem witness_FinalizeRaw : ∀ acc ∈ [digest0, [], [0x11, 0x22, 0x33], digest0 ++ [0x55]],
    (wrapped .raw acc []).params.Valid ∧ (wrapped .raw acc []).params.variant = .raw ∧
    ((wrapped .raw acc []).acc.length = 4 ↔ acc = digest0) := by decide

/-- Two pieces of a message, the host loading the second and starting each command between. -/
theorem witness_UpdatesConcatenate : ∃ s t u x f : State, s.params.Valid ∧ s.params.variant = .hashing ∧
    s.msgLen.toNat ≤ s.params.mcap ∧ exec .update s = .next t ∧ u.params = s.params ∧ u.acc = t.acc ∧
    u.msgLen.toNat ≤ s.params.mcap ∧ exec .update u = .next x ∧ f.params = s.params ∧ f.acc = x.acc ∧
    u.mem ≠ t.mem ∧ f.acc = [0x61, 0x62, 0x63] :=
  let s := wrapped .hashing [] [0x61, 0x62]
  let t := updateCommand s
  let u := { (t.storeBuf .msg [0x63]).startCommand 4 with msgLen := 1 }
  let x := updateCommand u
  ⟨s, t, u, x, x.startCommand 5, by decide, rfl, by decide, rfl, rfl, rfl, by decide, rfl, rfl, rfl, by decide, by decide⟩

/-- The longest salt, the fewest bits it needs, and the largest block (EncodeRndResult, EncodeRndVerifies). -/
theorem witness_EncodeRndResult : ∀ s ∈ [sized .raw 73 4 4 0, sized .hashing 128 4 0 0, sized .raw 57 4 2 0],
    s.params.Valid ∧ s.params.variant ≠ .none ∧ s.cfgSaltLen.toNat ≤ s.params.scap ∧
    s.digestLen.toNat = s.params.hlen ∧ 8 * s.params.hlen + 8 * s.cfgSaltLen.toNat + 9 ≤ s.bits.toNat ∧
    (s.bits.toNat + 7) / 8 ≤ s.params.emax := by decide

/-- A salt one byte too long; and after the draw each error of ENCODE: digest length, bits, capacity. -/
theorem witness_EncodeRndErrors :
    (∃ s : State, s.params.Valid ∧ s.params.variant ≠ .none ∧ s.params.scap < s.cfgSaltLen.toNat) ∧
    ∀ s ∈ [sized .raw 64 5 4 0, sized .raw 72 4 4 0, sized .raw 129 4 4 0], s.params.Valid ∧
      s.params.variant ≠ .none ∧ s.cfgSaltLen.toNat ≤ s.params.scap ∧ (s.digestLen.toNat ≠ s.params.hlen ∨
        s.bits.toNat < 8 * s.params.hlen + 8 * s.cfgSaltLen.toNat + 9 ∨ s.params.emax < (s.bits.toNat + 7) / 8) :=
  ⟨⟨sized .raw 64 4 5 0, by decide⟩, by decide⟩

theorem witness_WrapperAbsent : ∀ i ∈ [Instr.update, .finalize, .encodeRnd],
    (idle .none []).params.variant = .none ∧ i.wellFormed .none = false := by decide

end Sys2Proof.Tests
end

/-! ## Proofs: the scope's notions (spec `00_scope.md`) -/
section
namespace Sys2Proof.Proofs
open Sys2Proof.Machine

/-! ### Significant bits -/

/-- A byte has at most eight significant bits: `sigbits_le_iff` at the byte's own width. -/
theorem sigbits_le_eight (b : Byte) : sigbits b ≤ 8 :=
  (sigbits_le_iff b 8 le_rfl).2 b.isLt

/-- The equivalence of rule R16 with no bound on `n`: past the byte's width both sides hold of every byte. -/
theorem sigbits_le_iff_lt_two_pow (b : Byte) (n : Nat) : sigbits b ≤ n ↔ b.toNat < 2 ^ n := by
  rcases le_total n 8 with hn | hn
  · exact sigbits_le_iff b n hn
  · have hbits : sigbits b ≤ n := (sigbits_le_eight b).trans hn
    have hvalue : b.toNat < 2 ^ n := b.isLt.trans_le (Nat.pow_le_pow_right two_pos hn)
    exact iff_of_true hbits hvalue

/-- Settles O54: the four named values by evaluation, the equivalence by `sigbits_le_iff_lt_two_pow`. -/
theorem sigbitsRule : Obligations.SigbitsRule :=
  ⟨rfl, rfl, rfl, rfl, sigbits_le_iff_lt_two_pow⟩

end Sys2Proof.Proofs
end

/-! ## Proofs: command words (spec `30_encoding.md`) -/
section
namespace Sys2Proof.Proofs

/-! ### The two fields of a command word (rule R80) -/

theorem reservedClear_iff (w : Word) : reservedClear w = true ↔ w.toNat / 16 = 0 := by
  have hfield : (w.extractLsb' 4 28).toNat = w.toNat / 16 := by
    rw [BitVec.extractLsb'_toNat, Nat.shiftRight_eq_div_pow]
    exact Nat.mod_eq_of_lt (Nat.div_lt_of_lt_mul w.isLt)
  simp [reservedClear, ← BitVec.toNat_inj, hfield]

@[simp] theorem opField_toNat (w : Word) : (opField w).toNat = w.toNat % 16 := by
  simp [opField]

/-! ### The opcode map (rule R81) -/

/-- `opcodeInstr` reads the column of opcodes that `Instr.opcode` writes. -/
theorem opcodeInstr_eq_some_iff (op : BitVec 4) (i : Instr) : opcodeInstr op = some i ↔ i.opcode = op := by
  revert op
  cases i <;> decide

theorem exists_opcode_eq_iff (op : BitVec 4) : (∃ i : Instr, i.opcode = op) ↔ op.toNat ≠ 0 ∧ op.toNat < 7 := by
  simp only [← opcodeInstr_eq_some_iff, ← Option.isSome_iff_exists]
  revert op
  decide

/-- The column "present": the opcodes from 4 up are the wrapper's. -/
theorem wellFormed_iff_opcode (v : Variant) (i : Instr) :
    i.wellFormed v = true ↔ (4 ≤ i.opcode.toNat → v ≠ .none) := by
  cases i <;> simp [Instr.wellFormed, Instr.opcode]

/-! ### The decoder (rules R84, R85, R90) -/

theorem decode_eq_ok_iff (v : Variant) (w : Word) (i : Instr) :
    decode v w = .ok i ↔ reservedClear w = true ∧ i.opcode = opField w ∧ i.wellFormed v = true := by
  rw [← opcodeInstr_eq_some_iff, decode]
  split
  case isFalse hrsv => simp [hrsv]
  case isTrue hrsv =>
    cases opcodeInstr (opField w) with
    | none => simp
    | some j =>
      cases hj : j.wellFormed v <;> simpa [hrsv, hj] using fun h : j = i => h ▸ hj

/-- The legal words: `RSV` clear, `OP` one of the table's, and the wrapper present if `OP` is one of its own. -/
theorem exists_decode_eq_ok_iff (v : Variant) (w : Word) : (∃ i, decode v w = .ok i) ↔
    w.toNat / 16 = 0 ∧ (w.toNat % 16 ≠ 0 ∧ w.toNat % 16 < 7) ∧ (4 ≤ w.toNat % 16 → v ≠ .none) := by
  simp only [decode_eq_ok_iff, wellFormed_iff_opcode, reservedClear_iff, ← opField_toNat, ← exists_opcode_eq_iff]
  constructor
  · rintro ⟨i, hrsv, hop, hv⟩
    exact ⟨hrsv, ⟨i, hop⟩, hop ▸ hv⟩
  · rintro ⟨hrsv, ⟨i, hop⟩, hv⟩
    exact ⟨i, hrsv, hop, hop ▸ hv⟩

/-- Settles O3: the complement of `exists_decode_eq_ok_iff`. -/
theorem illegalWordsExact : Obligations.IllegalWordsExact := by
  intro v w
  rw [← not_exists, exists_decode_eq_ok_iff]
  simp only [not_and_or, not_not, not_lt, Classical.not_imp, or_assoc, ne_eq]

end Sys2Proof.Proofs
end

/-! ## Proofs: the mask generator and MASK (spec `40_mask_generator.md`) -/
section
namespace Sys2Proof.Proofs
open Sys2Proof.Machine

/-! ### The hash stream (rule R100) -/

/-- From counter `i` on, byte `j` of the blocks lies in the block of counter `i + j div HLEN`, at `j mod HLEN`. -/
theorem mgfBlocks_getElem? (c : Collab) (hlen : Nat) (seed : List Byte) (i k j : Nat) (hj : j < k * hlen) :
    (mgfBlocks c hlen seed i k)[j]? = (hashBytes c hlen (seed ++ c.ctr (i + j / hlen)))[j % hlen]? := by
  induction k generalizing i j with
  | zero => omega
  | succ k ih =>
    rw [mgfBlocks]
    rcases Nat.lt_or_ge j hlen with hfirst | hlater
    · rw [List.getElem?_append_left (by simpa using hfirst), Nat.div_eq_of_lt hfirst, Nat.mod_eq_of_lt hfirst,
        Nat.add_zero]
    · have hrest : j - hlen < k * hlen := by
        rw [Nat.succ_mul] at hj
        omega
      have hpos : 0 < hlen := Nat.pos_of_lt_mul_left hrest
      rw [List.getElem?_append_right (by simpa using hlater), hashBytes_length, ih (i + 1) (j - hlen) hrest,
        ← Nat.mod_eq_sub_mod hlater, Nat.div_eq_sub_div hpos hlater, Nat.add_assoc, Nat.add_comm 1]

theorem mgf_getElem? (c : Collab) (hlen : Nat) (seed : List Byte) (n j : Nat) (h : 1 ≤ hlen) (hj : j < n) :
    (mgf c hlen seed n)[j]? = (hashBytes c hlen (seed ++ c.ctr (j / hlen)))[j % hlen]? := by
  have hcover : j < (n + hlen - 1) / hlen * hlen := hj.trans_le (blocks_cover n hlen h)
  rw [mgf, List.getElem?_take_of_lt hj, mgfBlocks_getElem? c hlen seed 0 _ j hcover, Nat.zero_add]

/-- Settles O30: the length by `mgf_length`, each byte by `mgf_getElem?`. -/
theorem mgfIsHashStream : Obligations.MgfIsHashStream :=
  fun c hlen seed n h => ⟨mgf_length c hlen seed n h, fun j hj => mgf_getElem? c hlen seed n j h hj⟩

/-! ### MASK's operands (rule R106) -/

theorem maskCommand_of_not_fit (c : Collab) (s : State)
    (h : s.params.dcap < s.digestLen.toNat ∨ s.params.emax < s.emLen.toNat) :
    maskCommand c s = s.raise .capacity := by
  rcases maskCommand_cases c s with ⟨-, hraise⟩ | ⟨hdigest, hem, -⟩
  · exact hraise
  · omega

/-- Settles O33: MASK raises `ERR_CAPACITY` by `maskCommand_of_not_fit`, and a raise is the stated completion. -/
theorem maskCapacity : Obligations.MaskCapacity :=
  fun s h => ⟨congrArg Host.Outcome.next (maskCommand_of_not_fit collab s h), rfl⟩

end Sys2Proof.Proofs
end

/-! ## Proofs: the encoder (spec `41_encode.md`) -/
section
namespace Sys2Proof.Proofs
open Sys2Proof.Machine

/-! ### ENCODE's checks in their order (rules R122 to R124), with no premise on the parameters -/

theorem encodeCommand_of_digestLen_ne (c : Collab) (s : State) (hdigest : s.digestLen.toNat ≠ s.params.hlen) :
    encodeCommand c s = s.raise .digestLen := by
  rw [encodeCommand, if_pos hdigest]

theorem encodeCommand_of_few_bits (c : Collab) (s : State) (hdigest : s.digestLen.toNat = s.params.hlen)
    (hbits : s.bits.toNat < 8 * s.params.hlen + 8 * s.saltLen.toNat + 9) :
    encodeCommand c s = s.raise .outputBits := by
  rw [encodeCommand, if_neg (not_not_intro hdigest), if_pos hbits]

theorem encodeCommand_of_not_fit (c : Collab) (s : State) (hdigest : s.digestLen.toNat = s.params.hlen)
    (hbits : 8 * s.params.hlen + 8 * s.saltLen.toNat + 9 ≤ s.bits.toNat)
    (hfit : s.params.emax < s.blockLen ∨ s.params.scap < s.saltLen.toNat) :
    encodeCommand c s = s.raise .capacity := by
  rw [encodeCommand, if_neg (not_not_intro hdigest), if_neg hbits.not_gt, if_pos hfit]

/-- A ready ENCODE delivers its block by operations that record no error. -/
theorem encodeCommand_ready_flags (c : Collab) (s : State) (hv : s.params.Valid) (h : s.EncodeReady) :
    (encodeCommand c s).status = s.status.complete ∧ (encodeCommand c s).errCode = s.errCode := by
  simp [encodeCommand_ready c s hv h]

/-! ### The obligations -/

/-- Settles O35: the first check, `encodeCommand_of_digestLen_ne`; a raise is the stated completion. -/
theorem encodeDigestLength : Obligations.EncodeDigestLength :=
  fun s hdigest => ⟨congrArg Host.Outcome.next (encodeCommand_of_digestLen_ne collab s hdigest), rfl⟩

/-- Settles O36: below the bound by `encodeCommand_of_few_bits`; at the bound the operands are ready, and
`encodeCommand_ready_flags` gives the flags. -/
theorem encodeOutputBits : Obligations.EncodeOutputBits := by
  intro s hdigest
  constructor
  · intro hbits
    exact ⟨congrArg Host.Outcome.next (encodeCommand_of_few_bits collab s hdigest hbits), rfl⟩
  · intro hv hbits hem hsalt
    have hready : s.EncodeReady := ⟨hdigest, hbits.ge, hem, hsalt⟩
    exact ⟨encodeCommand collab s, rfl, encodeCommand_ready_flags collab s hv hready⟩

/-- Settles O37: the third check, `encodeCommand_of_not_fit`, with `ceil(BITS/8)` as `State.blockLen`. -/
theorem encodeCapacity : Obligations.EncodeCapacity :=
  fun s hdigest hbits hfit =>
    ⟨congrArg Host.Outcome.next (encodeCommand_of_not_fit collab s hdigest hbits hfit), rfl⟩

end Sys2Proof.Proofs
end

/-! ## Proofs: the verifier (spec `42_verify.md`) -/
section
namespace Sys2Proof.Proofs
open Sys2Proof.Machine

/-! ### The completions of VERIFY (rules R157, R158) -/

/-- Completing a command in progress keeps the cleared `ERR` and `VOK` of its start (log 22). -/
theorem inProgress_status_complete (s : State) (h : s.InProgress) : s.status.complete =
    { busy := false, done := true, err := false, vok := false, accum := s.status.accum } := by
  obtain ⟨-, -, herr, hvok, -, -⟩ := h
  rw [Status.complete, herr, hvok]

theorem inProgress_rejectVerify (s : State) (h : s.InProgress) : s.rejectVerify =
    { s with
      work := []
      status := { busy := false, done := true, err := false, vok := false, accum := s.status.accum } } := by
  rw [← inProgress_status_complete s h]
  rfl

/-! ### The checks before unmasking (rules R142 to R148) -/

/-- Checks 1 to 4 and the capacity check. -/
theorem verifyCommand_of_not_admitted (c : Collab) (s : State) (h : ¬ s.candidateAdmitted = true) :
    verifyCommand c s = s.rejectVerify := by
  rw [verifyCommand, if_neg h]

/-- Check 5, on the padded block that VERIFY holds in `W`. -/
theorem verifyCommand_of_topBits_set (c : Collab) (s : State) (hadm : s.candidateAdmitted = true)
    (htop : 2 ^ (8 - s.topBits) ≤ (s.paddedBlock.headD 0).toNat) : verifyCommand c s = s.rejectVerify := by
  obtain ⟨-, -, ⟨hlow, hhigh⟩, -, -⟩ := s.candidateAdmitted_iff.1 hadm
  have hfirst : s.padCandidate.work.read 0 = s.paddedBlock.headD 0 := s.padCandidate_read_zero hhigh (by omega)
  have hsig : 8 - s.topBits < sigbits (s.paddedBlock.headD 0) := by
    rwa [← not_le, sigbits_le_iff_lt_two_pow, not_lt]
  rw [verifyCommand, if_pos hadm]
  simp only [State.padCandidate_topBits, hfirst]
  rw [if_pos hsig]
  rfl

/-- A candidate of full length is not padded, so its own first byte is the one check 5 looks at. -/
theorem paddedBlock_headD_of_full (s : State) (hfull : s.emLen.toNat = s.blockLen) (hpos : 0 < s.emLen.toNat) :
    s.paddedBlock.headD 0 = s.bufByte .em 0 := by
  obtain ⟨n, hn⟩ := Nat.exists_eq_succ_of_ne_zero hpos.ne'
  rw [State.paddedBlock, ← hfull, Nat.sub_self, State.emOperand, hn]
  rfl

/-! ### The obligations -/

/-- Settles O41: of the two completions of `verifyCommand_cases` only the false one leaves `VOK = 0`, and
`inProgress_rejectVerify` writes it out. -/
theorem verifyFailuresAlike : Obligations.VerifyFailuresAlike := by
  intro s h
  refine ⟨verifyCommand collab s, rfl, fun hvok => ?_⟩
  rcases verifyCommand_cases collab s with hreject | ⟨sl, haccept⟩
  · have ⟨_, _, _, _, hcode, hsalt⟩ := h
    rw [hreject]
    exact ⟨inProgress_rejectVerify s h, hsalt, congrArg ErrCode.number hcode⟩
  · simp [haccept] at hvok

/-- Settles O42: both completions of `verifyCommand_cases` are written over the state at command start. -/
theorem verifyTouchesNothing : Obligations.VerifyTouchesNothing := by
  intro s
  refine ⟨verifyCommand collab s, rfl, ?_⟩
  rcases verifyCommand_cases collab s with hreject | ⟨sl, haccept⟩
  · rw [hreject]
    exact ⟨rfl, Memory.read_nil, rfl, rfl⟩
  · rw [haccept]
    exact ⟨rfl, Memory.read_nil, rfl, rfl⟩

/-- Settles O40: the first six causes each contradict a conjunct of `State.candidateAdmitted_iff`; the last is check 5,
`verifyCommand_of_topBits_set`, on a candidate that is not padded. -/
theorem verifyEarlyChecks : Obligations.VerifyEarlyChecks := by
  intro s h
  refine congrArg Host.Outcome.next (?_ : verifyCommand collab s = s.rejectVerify)
  by_cases hadm : s.candidateAdmitted = true
  · obtain ⟨hbits, hdigest, ⟨hlow, hhigh⟩, hfit, htrailer⟩ := s.candidateAdmitted_iff.1 hadm
    rcases h with h | h | h | h | h | h | ⟨hfull, htop⟩
    · exact absurd h hbits.not_gt
    · exact absurd hdigest h
    · exact absurd h hlow.not_ge
    · exact absurd h hhigh.not_gt
    · exact absurd h hfit.not_gt
    · exact absurd htrailer h
    · refine verifyCommand_of_topBits_set collab s hadm ?_
      rwa [paddedBlock_headD_of_full s hfull (by omega)]
  · exact verifyCommand_of_not_admitted collab s hadm

end Sys2Proof.Proofs
end

/-! ## Proofs: the wrapper (spec `43_wrapper.md`) -/
section
namespace Sys2Proof.Proofs
open Sys2Proof.Machine

/-! ### The wrapper's commands on an instance that has it (rule R84) -/

theorem whenWrapped_of_present (s t : State) (h : s.params.variant ≠ .none) : s.whenWrapped t = t := by
  rw [State.whenWrapped, if_neg h]

theorem exec_update_of_wrapped (s : State) (h : s.params.variant ≠ .none) :
    exec .update s = .next (updateCommand s) :=
  congrArg Host.Outcome.next (whenWrapped_of_present s _ h)

theorem exec_finalize_of_wrapped (s : State) (h : s.params.variant ≠ .none) :
    exec .finalize s = .next (finalizeCommand collab s) :=
  congrArg Host.Outcome.next (whenWrapped_of_present s _ h)

/-! ### UPDATE's capacity check (rule R172) -/

theorem updateCommand_of_fit (s : State) (hfit : s.msgLen.toNat ≤ s.params.mcap) :
    updateCommand s = (s.setAcc (s.acc ++ s.msgOperand) true).complete := by
  simpa [hfit, hfit.not_gt] using updateCommand_cases s

theorem updateCommand_of_not_fit (s : State) (hover : s.params.mcap < s.msgLen.toNat) :
    updateCommand s = s.raise .capacity := by
  simpa [hover, hover.not_ge] using updateCommand_cases s

/-- `ACC_LEN` after UPDATE: the sum of the two lengths, saturating (rule R35). -/
theorem accLenOf_append_msgOperand (s : State) : accLenOf (s.acc ++ s.msgOperand) =
    BitVec.ofNat 32 (min (s.acc.length + s.msgLen.toNat) (2 ^ 32 - 1)) := by
  rw [accLenOf, List.length_append, State.msgOperand_length]

/-! ### The length rule of the RAW variant (rule R176) -/

theorem finalizeCommand_of_raw (c : Collab) (s : State) (hraw : s.params.variant = .raw)
    (hlen : s.acc.length = s.params.hlen) :
    finalizeCommand c s = ((s.setAcc [] false).deliverDigest s.acc).complete := by
  simpa [hraw, hlen] using finalizeCommand_cases c s

theorem finalizeCommand_of_raw_length_ne (c : Collab) (s : State) (hraw : s.params.variant = .raw)
    (hlen : s.acc.length ≠ s.params.hlen) : finalizeCommand c s = (s.setAcc [] false).raise .rawLen := by
  simpa [hraw, hlen] using finalizeCommand_cases c s

/-! ### What delivering a digest leaves in `DIGEST` and `DIGEST_LEN` (rule R174) -/

theorem deliverDigest_digestLen_toNat (s : State) (d : List Byte) (hv : s.params.Valid) :
    (s.deliverDigest d).digestLen.toNat = s.params.hlen := by
  obtain ⟨-, hdigest, hdcap, -⟩ := hv
  exact toNat_ofNat_of_le (hdigest.trans hdcap) (by decide)

theorem deliverDigest_bufByte (s : State) (d : List Byte) (j : Nat) (hj : j < d.length) :
    (s.deliverDigest d).bufByte .digest j = d.getD j 0 := by
  rw [State.bufByte, State.deliverDigest_mem, Memory.read_writeBytes_inside _ _ _ _ hj, List.getD_eq_getElem _ _ hj]

theorem deliverDigest_read_outside (s : State) (d : List Byte) (a : Nat) (ha : a < 0x0100 ∨ 0x0100 + d.length ≤ a) :
    (s.deliverDigest d).mem.read a = s.mem.read a := by
  rw [State.deliverDigest_mem]
  exact Memory.read_writeBytes_outside _ _ _ _ ha

/-! ### The obligations -/

/-- Settles O46: the two sides of UPDATE's check, `updateCommand_of_fit` and `updateCommand_of_not_fit`; the
accumulator's new length is `accLenOf_append_msgOperand`. -/
theorem updateResult : Obligations.UpdateResult := by
  intro s hwrapped
  rw [exec_update_of_wrapped s hwrapped]
  constructor
  · intro hfit
    rw [updateCommand_of_fit s hfit, ← accLenOf_append_msgOperand]
    rfl
  · intro hover
    rw [updateCommand_of_not_fit s hover]
    rfl

/-- Settles O48: at `HLEN` bytes `finalizeCommand_of_raw` delivers what the accumulator held before the drain, at any
other length `finalizeCommand_of_raw_length_ne` raises `ERR_RAW_LEN` on the drained state. -/
theorem finalizeRaw : Obligations.FinalizeRaw := by
  intro s hv hraw
  rw [exec_finalize_of_wrapped s (by simp [hraw])]
  constructor
  · intro hlen
    refine ⟨_, congrArg Host.Outcome.next (finalizeCommand_of_raw collab s hraw hlen), ?_, ?_, ?_, rfl⟩
    · exact deliverDigest_digestLen_toNat (s.setAcc [] false) s.acc hv
    · exact fun j hj => deliverDigest_bufByte _ s.acc j (hj.trans_eq hlen.symm)
    · exact fun a ha => deliverDigest_read_outside _ s.acc a (by rwa [hlen])
  · intro hlen
    rw [finalizeCommand_of_raw_length_ne collab s hraw hlen]
    exact ⟨rfl, rfl⟩

end Sys2Proof.Proofs
end

/-! ## Proofs: decode and encode agree (spec `30_encoding.md`) -/
section
namespace Sys2Proof.Proofs

theorem encodeWord_toNat (i : Instr) : (encodeWord i).toNat = i.opcode.toNat := by
  cases i <;> rfl

/-- A word is a command's encoding when its two fields are: `RSV` zero and `OP` the command's (rules R80, R81). -/
theorem eq_encodeWord_iff (w : Word) (i : Instr) :
    w = encodeWord i ↔ reservedClear w = true ∧ i.opcode = opField w := by
  have hop : i.opcode.toNat < 16 := i.opcode.isLt
  rw [reservedClear_iff, ← BitVec.toNat_inj, ← BitVec.toNat_inj, encodeWord_toNat, opField_toNat]
  omega

/-- Settles O2: the fields of `decode_eq_ok_iff` are those of the encoding, by `eq_encodeWord_iff`. -/
theorem decodeEncodeExact : Obligations.DecodeEncodeExact := by
  intro v w i
  rw [decode_eq_ok_iff, eq_encodeWord_iff, ← and_assoc, and_comm]

/-- Settles O1: the decoder evaluated at each word. -/
theorem decodeKnownWords : Obligations.DecodeKnownWords := by
  unfold Obligations.DecodeKnownWords
  decide

end Sys2Proof.Proofs
end

/-! ## Proofs: what every command can do (spec `30_encoding.md`, `10_state.md` rule R39) -/
section
namespace Sys2Proof.Proofs
open Sys2Proof.Machine

/-! ### How each command can end -/

/-- The ends of ENCODE's rule on the state `s` (rules R121 to R131), with no premise on the parameters. A delivered block
is any of `ceil(BITS/8)` bytes: what the bytes are is the matter of `State.encodedMessage`. -/
inductive EncodeEnds (s : State) : State → Prop
  | refused (e : ErrCode) (hcode : e = .digestLen ∨ e = .outputBits ∨ e = .capacity) (h : ¬ s.EncodeReady) :
      EncodeEnds s (s.raise e)
  | misbuilt (h : s.EncodeReady) (hlen : (s.encodedMessage collab).length ≠ s.blockLen) :
      EncodeEnds s (s.raise .invariant)
  | delivered (block : List Byte) (h : s.EncodeReady) (hlen : block.length = s.blockLen) :
      EncodeEnds s ((s.storeBuf .em block).setEmLen s.blockLen).complete

theorem encodeCommand_ends (s : State) : EncodeEnds s (encodeCommand collab s) := by
  unfold encodeCommand
  split_ifs with hdigest hbits hfit hlen
  · exact .refused _ (.inl rfl) fun h => hdigest h.1
  · exact .refused _ (.inr (.inl rfl)) fun h => h.2.1.not_gt hbits
  · exact .refused _ (.inr (.inr rfl)) fun ⟨_, _, hem, hsalt⟩ => hfit.elim hem.not_gt hsalt.not_gt
  · exact .misbuilt ⟨not_not.1 hdigest, by omega, by omega, by omega⟩ hlen
  · exact .delivered _ ⟨not_not.1 hdigest, by omega, by omega, by omega⟩ (not_not.1 hlen)

/-- The ends of command `i` run on the state `s`: one constructor per completion of the command's own rule. -/
inductive Ends (s : State) : Instr → State → Prop
  | absent (i : Instr) (hv : s.params.variant = .none) (hi : i.wellFormed .none = false) :
      Ends s i (s.raise .illegalCmd)
  | maskRefused : Ends s .mask (s.raise .capacity)
  | maskDone (hem : s.emLen.toNat ≤ s.params.emax) :
      Ends s .mask (s.storeBuf .em (xorMask collab s.params.hlen s.emOperand s.digestOperand)).complete
  | encode {t : State} (h : EncodeEnds s t) : Ends s .encode t
  | verifyFalse : Ends s .verify s.rejectVerify
  | verifyTrue (sl : Nat) : Ends s .verify (s.acceptVerify sl)
  | updateRefused (h : s.params.mcap < s.msgLen.toNat) : Ends s .update (s.raise .capacity)
  | updateDone (hv : s.params.variant ≠ .none) (h : s.msgLen.toNat ≤ s.params.mcap) :
      Ends s .update (s.setAcc (s.acc ++ s.msgOperand) true).complete
  | finalizeRefused (hv : s.params.variant = .raw) (hlen : s.acc.length ≠ s.params.hlen) :
      Ends s .finalize ((s.setAcc [] false).raise .rawLen)
  | finalizeDone (d : List Byte) (hd : d.length = s.params.hlen)
      (h : s.params.variant = .hashing ∨ s.acc.length = s.params.hlen) :
      Ends s .finalize ((s.setAcc [] false).deliverDigest d).complete
  | encodeRndRefused (h : s.params.scap < s.cfgSaltLen.toNat) : Ends s .encodeRnd (s.raise .capacity)
  | encodeRndDrawn {t : State} (h : s.cfgSaltLen.toNat ≤ s.params.scap) (ht : EncodeEnds (s.drawSalt collab) t) :
      Ends s .encodeRnd t

/-- A wrapper command ends as the illegal command without the wrapper, and by its own rule with it (log 16). -/
theorem whenWrapped_ends (s t : State) (i : Instr) (hi : i.wellFormed .none = false)
    (h : s.params.variant ≠ .none → Ends s i t) : Ends s i (s.whenWrapped t) := by
  unfold State.whenWrapped
  split_ifs with hv
  · exact .absent i hv hi
  · exact h hv

theorem maskCommand_ends (s : State) : Ends s .mask (maskCommand collab s) := by
  rcases maskCommand_cases collab s with ⟨-, h⟩ | ⟨-, hem, h⟩
  · exact h ▸ .maskRefused
  · exact h ▸ .maskDone hem

theorem verifyCommand_ends (s : State) : Ends s .verify (verifyCommand collab s) := by
  rcases verifyCommand_cases collab s with h | ⟨sl, h⟩
  · exact h ▸ .verifyFalse
  · exact h ▸ .verifyTrue sl

theorem updateCommand_ends (s : State) (hv : s.params.variant ≠ .none) : Ends s .update (updateCommand s) := by
  rcases updateCommand_cases s with ⟨hover, h⟩ | ⟨hfit, h⟩
  · exact h ▸ .updateRefused hover
  · exact h ▸ .updateDone hv hfit

theorem finalizeCommand_ends (s : State) (hv : s.params.variant ≠ .none) :
    Ends s .finalize (finalizeCommand collab s) := by
  rcases finalizeCommand_cases collab s with ⟨hnone, -⟩ | ⟨hhash, h⟩ | ⟨hraw, hlen, h⟩ | ⟨hraw, hlen, h⟩
  · exact absurd hnone hv
  · exact h ▸ .finalizeDone _ (hashBytes_length _ _ _) (.inl hhash)
  · exact h ▸ .finalizeRefused hraw hlen
  · exact h ▸ .finalizeDone _ hlen (.inr hlen)

theorem encodeRndCommand_ends (s : State) : Ends s .encodeRnd (encodeRndCommand collab s) := by
  rcases encodeRndCommand_cases collab s with ⟨hover, h⟩ | ⟨hfit, h⟩
  · exact h ▸ .encodeRndRefused hover
  · exact h ▸ .encodeRndDrawn hfit (encodeCommand_ends _)

/-- Every command completes, in one of its own ends. -/
theorem exec_ends (i : Instr) (s : State) : ∃ t, exec i s = .next t ∧ Ends s i t := by
  cases i with
  | mask => exact ⟨_, rfl, maskCommand_ends s⟩
  | encode => exact ⟨_, rfl, .encode (encodeCommand_ends s)⟩
  | verify => exact ⟨_, rfl, verifyCommand_ends s⟩
  | update => exact ⟨_, rfl, whenWrapped_ends s _ _ rfl (updateCommand_ends s)⟩
  | finalize => exact ⟨_, rfl, whenWrapped_ends s _ _ rfl (finalizeCommand_ends s)⟩
  | encodeRnd => exact ⟨_, rfl, whenWrapped_ends s _ _ rfl fun _ => encodeRndCommand_ends s⟩

theorem ends_of_exec {i : Instr} {s t : State} (h : exec i s = .next t) : Ends s i t := by
  obtain ⟨u, hu, hends⟩ := exec_ends i s
  rw [h, Host.Outcome.next.injEq] at hu
  exact hu ▸ hends

/-! ### The write columns (rule R39) -/

/-- The next state `t` differs from `s` only in what rule R39 lets command `i` write, and `t` is complete. -/
def WriteColumns (s t : State) : Instr → Prop
  | .mask => t = { s with
      mem := t.mem, errCode := t.errCode
      status := { s.status with busy := false, done := true, err := t.status.err } }
  | .encode => t = { s with
      mem := t.mem, emLen := t.emLen, errCode := t.errCode
      status := { s.status with busy := false, done := true, err := t.status.err } }
  | .verify => t = { s with
      saltLenOut := t.saltLenOut, work := []
      status := { s.status with busy := false, done := true, vok := t.status.vok } }
  | .update => t = { s with
      acc := t.acc, accLen := t.accLen, errCode := t.errCode
      status := { s.status with busy := false, done := true, err := t.status.err, accum := t.status.accum } }
  | .finalize => t = { s with
      mem := t.mem, digestLen := t.digestLen, acc := t.acc, accLen := t.accLen, errCode := t.errCode
      status := { s.status with busy := false, done := true, err := t.status.err, accum := t.status.accum } }
  | .encodeRnd => t = { s with
      mem := t.mem, saltLen := t.saltLen, emLen := t.emLen, errCode := t.errCode, rngDraws := t.rngDraws
      status := { s.status with busy := false, done := true, err := t.status.err } }

theorem EncodeEnds.writeColumns {s t : State} (h : EncodeEnds s t) : WriteColumns s t .encode := by
  cases h <;> rfl

theorem EncodeEnds.writeColumns_drawSalt {s t : State} (h : EncodeEnds (s.drawSalt collab) t) :
    WriteColumns s t .encodeRnd := by
  simp only [State.drawSalt] at h
  generalize (collab.rng s.rngDraws s.cfgSaltLen.toNat).toList = drawn at h
  cases h <;> rfl

theorem Ends.writeColumns {s t : State} {i : Instr} (h : Ends s i t) : WriteColumns s t i := by
  cases h with
  | absent i _ hi =>
    cases i with
    | mask | encode | verify => cases hi
    | update | finalize | encodeRnd => rfl
  | encode h => exact h.writeColumns
  | encodeRndDrawn _ h => exact h.writeColumns_drawSalt
  | maskRefused | maskDone | verifyFalse | verifyTrue | updateRefused | updateDone => rfl
  | finalizeRefused | finalizeDone | encodeRndRefused => rfl

/-- What every row of the write columns leaves alone: the flags of completion, and what only the host writes. -/
theorem WriteColumns.host_side {s t : State} {i : Instr} (h : WriteColumns s t i) :
    t.status.busy = false ∧ t.status.done = true ∧
    t.params = s.params ∧ t.bits = s.bits ∧ t.cfg = s.cfg ∧ t.cfgSaltLen = s.cfgSaltLen ∧ t.msgLen = s.msgLen ∧
    t.opLatch = s.opLatch ∧ t.events = s.events ∧ t.busData = s.busData ∧ t.busyReads = s.busyReads := by
  cases i <;> (unfold WriteColumns at h; rw [h]; simp only [and_self])

/-- Settles O26: the columns no command writes, `WriteColumns.host_side`. -/
theorem commandsCompleteAndSpareHostState : Obligations.CommandsCompleteAndSpareHostState := by
  intro i s
  obtain ⟨t, ht, hends⟩ := exec_ends i s
  exact ⟨t, ht, hends.writeColumns.host_side⟩

/-- Only UPDATE and FINALIZE have the accumulator in their columns (rule R178). -/
theorem WriteColumns.accumulator {s t : State} {i : Instr} (h : WriteColumns s t i) (hu : i ≠ .update)
    (hf : i ≠ .finalize) : t.acc = s.acc ∧ t.accLen = s.accLen ∧ t.status.accum = s.status.accum := by
  cases i with
  | update => exact absurd rfl hu
  | finalize => exact absurd rfl hf
  | mask | encode | verify | encodeRnd => unfold WriteColumns at h; rw [h]; simp only [and_self]

/-- Only VERIFY has `W`, `SALT_LEN_OUT` and `VOK` in its columns (rules R156, R158). -/
theorem WriteColumns.verifier {s t : State} {i : Instr} (h : WriteColumns s t i) (hi : i ≠ .verify) :
    t.work = s.work ∧ t.saltLenOut = s.saltLenOut ∧ t.status.vok = s.status.vok := by
  cases i with
  | verify => exact absurd rfl hi
  | mask | encode | update | finalize | encodeRnd => unfold WriteColumns at h; rw [h]; simp only [and_self]

theorem WriteColumns.digestLen {s t : State} {i : Instr} (h : WriteColumns s t i) (hi : i ≠ .finalize) :
    t.digestLen = s.digestLen := by
  cases i with
  | finalize => exact absurd rfl hi
  | mask | encode | verify | update | encodeRnd => unfold WriteColumns at h; rw [h]

theorem WriteColumns.saltLen {s t : State} {i : Instr} (h : WriteColumns s t i) (hi : i ≠ .encodeRnd) :
    t.saltLen = s.saltLen ∧ t.rngDraws = s.rngDraws := by
  cases i with
  | encodeRnd => exact absurd rfl hi
  | mask | encode | verify | update | finalize => unfold WriteColumns at h; rw [h]; simp only [and_self]

theorem WriteColumns.emLen {s t : State} {i : Instr} (h : WriteColumns s t i) (he : i ≠ .encode)
    (hr : i ≠ .encodeRnd) : t.emLen = s.emLen := by
  cases i with
  | encode => exact absurd rfl he
  | encodeRnd => exact absurd rfl hr
  | mask | verify | update | finalize => unfold WriteColumns at h; rw [h]

/-! ### The bytes a command may write -/

/-- The addresses that command `i` may write (rules R39, R40): the window of `EM` or `DIGEST`, and for ENCODE_RND the
drawn part of `SALT` too. -/
def MayWrite (s : State) (a : Nat) : Instr → Prop
  | .mask | .encode => 0x2000 ≤ a
  | .verify | .update => False
  | .finalize => 0x0100 ≤ a ∧ a < 0x0200
  | .encodeRnd => (0x1000 ≤ a ∧ a < 0x1000 + s.cfgSaltLen.toNat) ∨ 0x2000 ≤ a

theorem storeBuf_read_outside (b : Buffer) (bs : List Byte) (s : State) (a : Nat)
    (h : a < b.base ∨ b.base + bs.length ≤ a) : (s.storeBuf b bs).mem.read a = s.mem.read a :=
  Memory.read_writeBytes_outside _ _ _ _ h

/-- The draw writes its own bytes of `SALT` (rule R180). -/
theorem drawSalt_read_outside (c : Collab) (s : State) (a : Nat)
    (h : a < 0x1000 ∨ 0x1000 + s.cfgSaltLen.toNat ≤ a) : (s.drawSalt c).mem.read a = s.mem.read a :=
  storeBuf_read_outside .salt _ s a (by simpa [Buffer.base] using h)

theorem EncodeEnds.read_below_em {s t : State} (h : EncodeEnds s t) (a : Nat) (ha : a < 0x2000) :
    t.mem.read a = s.mem.read a := by
  cases h with
  | refused | misbuilt => rfl
  | delivered => exact storeBuf_read_outside .em _ s a (.inl ha)

theorem Ends.read_outside {s t : State} {i : Instr} (h : Ends s i t) (hv : s.params.Valid) (a : Nat)
    (ha : ¬ MayWrite s a i) : t.mem.read a = s.mem.read a := by
  cases h with
  | absent | maskRefused | verifyFalse | verifyTrue | updateRefused | updateDone | finalizeRefused
  | encodeRndRefused => rfl
  | maskDone => exact storeBuf_read_outside .em _ s a (.inl (not_le.1 ha))
  | encode h => exact h.read_below_em a (not_le.1 ha)
  | finalizeDone d hd =>
    obtain ⟨-, hdigest, hdcap, -⟩ := hv
    refine deliverDigest_read_outside _ d a ?_
    simp only [MayWrite] at ha
    omega
  | encodeRndDrawn _ h =>
    simp only [MayWrite] at ha
    rw [h.read_below_em a (by omega), drawSalt_read_outside collab s a (by omega)]

/-- Settles O27: the registers by the write columns, the buffer bytes by `Ends.read_outside` and the windows' bases. -/
theorem commandFrames : Obligations.CommandFrames := by
  intro i s hv
  obtain ⟨t, ht, hends⟩ := exec_ends i s
  have hcols := hends.writeColumns
  have hread := hends.read_outside hv
  obtain ⟨-, -, hdcap, -, -, hscap, -, hmcap⟩ := hv
  refine ⟨t, ht, fun hi => ⟨hcols.digestLen hi, fun k hk => hread _ ?_⟩,
    fun hi => ⟨(hcols.saltLen hi).1, (hcols.saltLen hi).2, fun k hk => hread _ ?_⟩, hcols.emLen,
    fun hi k hk => hread _ ?_, fun k hk => hread _ ?_, hcols.verifier, hcols.accumulator⟩
  · cases i <;> simp [MayWrite, Buffer.base] at hi ⊢ <;> omega
  · cases i <;> simp [MayWrite, Buffer.base] at hi ⊢ <;> omega
  · cases i <;> simp [MayWrite, Buffer.base] at hi ⊢; omega
  · cases i <;> simp [MayWrite, Buffer.base] <;> omega

end Sys2Proof.Proofs
end

/-! ## Proofs: errors and completion kinds (spec `60_exceptions.md`) -/
section
namespace Sys2Proof.Proofs
open Sys2Proof.Machine

theorem wrapped_of_wellFormed {v : Variant} {i : Instr} (hi : i.wellFormed .none = false)
    (h : i.wellFormed v = true) : v ≠ .none := by
  rintro rfl
  exact Bool.false_ne_true (hi.symm.trans h)

/-- An error of ENCODE is raised before anything is written (rules R122 to R124, R130). -/
theorem EncodeEnds.mem_of_err {s t : State} (h : EncodeEnds s t) (hs : s.status.err = false)
    (ht : t.status.err = true) : t.mem = s.mem := by
  cases h with
  | refused | misbuilt => rfl
  | delivered => simp [hs] at ht

theorem Ends.mem_of_err {s t : State} {i : Instr} (h : Ends s i t) (hi : i ≠ .encodeRnd)
    (hs : s.status.err = false) (ht : t.status.err = true) : t.mem = s.mem := by
  cases h with
  | absent | maskRefused | updateRefused | finalizeRefused => rfl
  | verifyFalse | verifyTrue | updateDone => rfl
  | encode h => exact h.mem_of_err hs ht
  | maskDone | finalizeDone => simp [hs] at ht
  | encodeRndRefused | encodeRndDrawn => exact absurd rfl hi

/-- An error of ENCODE_RND leaves the memory as it was, or as the draw left it (rule R181). -/
theorem Ends.encodeRnd_mem_of_err {s t : State} (h : Ends s .encodeRnd t) (hs : s.status.err = false)
    (ht : t.status.err = true) : t.mem = s.mem ∨ t.mem = (s.drawSalt collab).mem := by
  cases h with
  | absent | encodeRndRefused => exact .inl rfl
  | encodeRndDrawn _ h => exact .inr (h.mem_of_err hs ht)

/-- Settles O28: `Ends.mem_of_err`, and for ENCODE_RND the bytes of the draw by `drawSalt_read_outside`. -/
theorem errorsChangeNoBuffer : Obligations.ErrorsChangeNoBuffer := by
  intro i s t _ hs hexec ht
  have hends := ends_of_exec hexec
  refine ⟨fun hi => hends.mem_of_err hi hs ht, ?_⟩
  rintro rfl a ha
  rcases hends.encodeRnd_mem_of_err hs ht with h | h
  · rw [h]
  · rw [h, drawSalt_read_outside collab s a ha]

/-! ### Completion codes (rules R201, R202) -/

/-- ENCODE's codes; `ERR_INVARIANT` needs a block of another length than `ceil(BITS/8)` (rule R130). -/
theorem EncodeEnds.errCode {s t : State} (h : EncodeEnds s t) (hv : s.params.Valid) :
    (t.status.err = s.status.err ∧ t.errCode = s.errCode) ∨
    (t.status.err = true ∧ (t.errCode = .digestLen ∨ t.errCode = .outputBits ∨ t.errCode = .capacity)) := by
  cases h with
  | refused e hcode => exact .inr ⟨rfl, hcode⟩
  | misbuilt h hlen => exact absurd (s.encodedMessage_length collab hv h) hlen
  | delivered => exact .inl ⟨rfl, rfl⟩

/-- The codes each command may end with (rule R202). -/
def MayRaise (v : Variant) (e : ErrCode) : Instr → Prop
  | .mask | .update => e = .capacity
  | .encode | .encodeRnd => e = .digestLen ∨ e = .outputBits ∨ e = .capacity
  | .verify => False
  | .finalize => v = .raw ∧ e = .rawLen

/-- A command that is present ends normally, with `ERR` and `ERRCODE` as the start left them, or with one of its
codes. -/
theorem Ends.errCode {s t : State} {i : Instr} (h : Ends s i t) (hv : s.params.Valid)
    (hwf : i.wellFormed s.params.variant = true) :
    (t.status.err = s.status.err ∧ t.errCode = s.errCode) ∨
    (t.status.err = true ∧ MayRaise s.params.variant t.errCode i) := by
  cases h with
  | absent i hnone hi => exact absurd hnone (wrapped_of_wellFormed hi hwf)
  | maskRefused | updateRefused => exact .inr ⟨rfl, rfl⟩
  | maskDone | verifyFalse | verifyTrue | updateDone | finalizeDone => exact .inl ⟨rfl, rfl⟩
  | encode h => exact h.errCode hv
  | finalizeRefused hraw => exact .inr ⟨rfl, hraw, rfl⟩
  | encodeRndRefused => exact .inr ⟨rfl, .inr (.inr rfl)⟩
  | encodeRndDrawn _ h => exact h.errCode hv

theorem not_mayRaise_none (v : Variant) (i : Instr) : ¬ MayRaise v .none i := by
  cases i <;> simp [MayRaise]

/-- Settles O29: `Ends.errCode` from a started state, whose `ERR` and `ERRCODE` are clear; the codes of each command
are those of `MayRaise`. -/
theorem completionKinds : Obligations.CompletionKinds := by
  intro i s hv hwf ⟨_, _, herr, _, hcode, _⟩
  obtain ⟨t, ht, hends⟩ := exec_ends i s
  have hkind : t.errCode = .none ∨ MayRaise s.params.variant t.errCode i :=
    (hends.errCode hv hwf).imp (fun h => h.2.trans hcode) And.right
  have hflag : t.status.err = false ↔ t.errCode = .none := by
    rcases hends.errCode hv hwf with ⟨hterr, htcode⟩ | ⟨hterr, hraise⟩
    · exact iff_of_true (hterr.trans herr) (htcode.trans hcode)
    · refine iff_of_false (by simp [hterr]) fun hnone => not_mayRaise_none _ i (hnone ▸ hraise)
  refine ⟨t, ht, hflag, ?_, ?_, ?_, ?_, ?_⟩
  · rintro rfl; exact hkind
  · rintro (rfl | rfl) <;> exact hkind
  · rintro rfl; exact hkind.resolve_right id
  · rintro rfl; exact hkind
  · rintro rfl; exact hkind

/-- Settles O53: `State.whenWrapped` without a wrapper, for each of the wrapper's commands. -/
theorem wrapperAbsent : Obligations.WrapperAbsent := by
  intro s i hv hi
  have habsent (t : State) : s.whenWrapped t = s.raise .illegalCmd := if_pos hv
  cases i with
  | mask | encode | verify => cases hi
  | update | finalize | encodeRnd => exact congrArg Host.Outcome.next (habsent _)

end Sys2Proof.Proofs
end

/-! ## Proofs: the host's bus (spec `20_memory.md`, `10_state.md` rules R23 to R36) -/
section
namespace Sys2Proof.Proofs
open Sys2Proof.Machine

/-! ### Which access reaches what (rules R62, R66) -/

theorem reg_wordAccess (r : Reg) : wordAccess r.offset 4 = true := by
  cases r <;> rfl

theorem busWrite_reg (r : Reg) (v : Word) (s : State) (hidle : s.status.busy = false)
    (hp : r.present s.params.variant = true) : s.busWrite r.offset 4 v = s.writeReg r v := by
  simp [State.busWrite, hidle, reg_wordAccess, hp]

theorem busRead_reg (r : Reg) (s : State) (hp : r.present s.params.variant = true) :
    s.busRead r.offset 4 = s.readReg r := by
  simp [State.busRead, reg_wordAccess, hp]

/-- No byte access is four bytes wide. -/
theorem byteAccess_four (a : Nat) : byteAccess a 4 = false := rfl

theorem busWrite_no_reg (a : Nat) (v : Word) (s : State) (h : regAt s.params.variant a = none) :
    s.busWrite a 4 v = s := by
  simp [State.busWrite, h, byteAccess_four]

theorem busRead_no_reg (a : Nat) (s : State) (h : regAt s.params.variant a = none) :
    s.busRead a 4 = s.answer 0 := by
  simp [State.busRead, h, byteAccess_four]

theorem busWrite_illegal (a n : Nat) (v : Word) (s : State) (hw : wordAccess a n = false)
    (hb : byteAccess a n = false) : s.busWrite a n v = s := by
  simp [State.busWrite, hw, hb]

theorem busRead_illegal (a n : Nat) (s : State) (hw : wordAccess a n = false)
    (hb : byteAccess a n = false) : s.busRead a n = s.answer 0 := by
  simp [State.busRead, hw, hb]

/-- A byte access is no word access: its width is 1. -/
theorem wordAccess_one (a : Nat) : wordAccess a 1 = false := rfl

theorem busWrite_window (a : Nat) (v : Word) (s : State) (hidle : s.status.busy = false)
    (ha : byteAccess a 1 = true) : s.busWrite a 1 v = s.writeWindow a (v.setWidth 8) := by
  simp [State.busWrite, hidle, wordAccess_one, ha]

theorem busRead_window (a : Nat) (s : State) (ha : byteAccess a 1 = true) : s.busRead a 1 = s.readWindow a := by
  simp [State.busRead, wordAccess_one, ha]

/-! ### Writes to registers (rules R23, R24, R32, R241) -/

theorem step_write (s : State) (a n : Nat) (v : Word) (es : List Event) (h : s.events = .bus (.write a n v) :: es) :
    step s = .next ((s.withEvents es).busWrite a n v) :=
  step_bus s _ es h

theorem step_read (s : State) (a n : Nat) (es : List Event) (h : s.events = .bus (.read a n) :: es) :
    step s = .next ((s.withEvents es).busRead a n) :=
  step_bus s _ es h

theorem step_write_reg (s : State) (r : Reg) (v : Word) (es : List Event)
    (h : s.events = .bus (.write r.offset 4 v) :: es) (hidle : s.status.busy = false)
    (hp : r.present s.params.variant = true) : step s = .next ((s.withEvents es).writeReg r v) := by
  rw [step_write s _ _ v es h, busWrite_reg r v (s.withEvents es) hidle hp]

/-- Settles O15: `State.busWrite_busy`. -/
theorem writesWhileBusyLost : Obligations.WritesWhileBusyLost := by
  intro s a n v es h hbusy
  rw [step_write s a n v es h, State.busWrite_busy a n v (s.withEvents es) hbusy]
  rfl

/-- Settles O16: the complement of `wordAccess_iff` and `byteAccess_iff`. -/
theorem illegalAccessRefused : Obligations.IllegalAccessRefused := by
  intro s a n es hillegal
  obtain ⟨hword, hbyte⟩ := not_or.1 hillegal
  rw [← wordAccess_iff, Bool.not_eq_true] at hword
  rw [← byteAccess_iff, Bool.not_eq_true] at hbyte
  constructor
  · intro v h
    rw [step_write s a n v es h, busWrite_illegal a n v _ hword hbyte]
    rfl
  · intro h
    rw [step_read s a n es h, busRead_illegal a n _ hword hbyte]
    rfl

/-- Settles O17: `State.busRead_frame`. -/
theorem readsHaveNoSideEffect : Obligations.ReadsHaveNoSideEffect := by
  intro s a n es h
  obtain ⟨d, k, hframe⟩ := (s.withEvents es).busRead_frame a n
  exact ⟨d, k, (step_read s a n es h).trans (congrArg Host.Outcome.next hframe)⟩

/-- Keeping bit 0 is the remainder by 2. -/
theorem and_one_eq (v : Word) : v &&& 1 = BitVec.ofNat 32 (v.toNat % 2) := by
  apply BitVec.eq_of_toNat_eq
  simp [Nat.and_one_is_mod]
  omega

/-- Settles O18: one register of `State.writeReg` per clause; without a wrapper nothing stands at 0x028. -/
theorem registerWrites : Obligations.RegisterWrites := by
  intro s a v es h hidle
  refine ⟨?_, ?_, ?_, ?_, ?_, ?_, ?_, ?_⟩
  · rintro rfl; exact step_write_reg s .bits v es h hidle rfl
  · rintro rfl; exact step_write_reg s .digestLen v es h hidle rfl
  · rintro rfl; exact step_write_reg s .saltLen v es h hidle rfl
  · rintro rfl; exact step_write_reg s .emLen v es h hidle rfl
  · rintro rfl
    rw [step_write_reg s .cfg v es h hidle rfl, ← and_one_eq]
    rfl
  · rintro rfl; exact step_write_reg s .cfgSaltLen v es h hidle rfl
  · rintro rfl hv
    exact step_write_reg s .msgLen v es h hidle (by simpa [Reg.present] using hv)
  · rintro rfl hv
    have hnone : regAt s.params.variant 0x028 = none := by rw [hv]; decide
    rw [step_write s _ _ v es h, busWrite_no_reg _ v (s.withEvents es) hnone]
    rfl

/-- The read-only rows of the map (rule R23). -/
theorem writeReg_readOnly (r : Reg) (v : Word) (s : State)
    (h : r.offset = 0x004 ∨ r.offset = 0x008 ∨ r.offset = 0x024 ∨ 0x02C ≤ r.offset) : s.writeReg r v = s := by
  cases r with
  | cmd | bits | digestLen | saltLen | emLen | cfg | cfgSaltLen | msgLen => simp [Reg.offset] at h
  | status | errcode | saltLenOut | accLen | paramHlen | paramEmax | paramScap | paramDcap | paramMcap
  | paramVariant | version => rfl

theorem busWrite_readOnly (a : Nat) (v : Word) (s : State)
    (h : a = 0x004 ∨ a = 0x008 ∨ a = 0x024 ∨ 0x02C ≤ a) : s.busWrite a 4 v = s := by
  cases hbusy : s.status.busy
  · cases hreg : regAt s.params.variant a with
    | none => exact busWrite_no_reg a v s hreg
    | some r =>
      obtain ⟨rfl, hp⟩ := regAt_eq_some hreg
      rw [busWrite_reg r v s hbusy hp, writeReg_readOnly r v s h]
  · exact s.busWrite_busy a 4 v hbusy

/-- Settles O19: `busWrite_readOnly`. -/
theorem readOnlyWritesIgnored : Obligations.ReadOnlyWritesIgnored := by
  intro s a v es h _ ha
  rw [step_write s a 4 v es h, busWrite_readOnly a v _ (by omega)]
  rfl

/-! ### Reads of registers (rules R25, R26, R36, R63, R242) -/

/-- Only the length registers that some command writes can be pending (rule R242). -/
theorem writePending_of_not_length (r : Reg) (s : State)
    (h : r ≠ .emLen ∧ r ≠ .digestLen ∧ r ≠ .saltLen ∧ r ≠ .accLen) : s.writePending r = false := by
  obtain ⟨hem, hdigest, hsalt, hacc⟩ := h
  rw [← Bool.not_eq_true, State.writePending_iff]
  simp [State.WritesLength, hem, hdigest, hsalt, hacc]

theorem busRead_settled {a : Nat} (r : Reg) (ha : a = r.offset) (s : State) (hp : r.present s.params.variant = true)
    (h : s.status.busy = false ∨ s.writePending r = false) : (s.busRead a 4).busData = s.regValue r := by
  rw [ha, busRead_reg r s hp, s.readReg_settled r h, State.answer_busData]

/-- A register that is no length register reads as it is, busy or idle. -/
theorem busRead_stable {a : Nat} (r : Reg) (ha : a = r.offset) (s : State) (hp : r.present s.params.variant = true)
    (h : r ≠ .emLen ∧ r ≠ .digestLen ∧ r ≠ .saltLen ∧ r ≠ .accLen) : (s.busRead a 4).busData = s.regValue r :=
  busRead_settled r ha s hp (.inr (writePending_of_not_length r s h))

theorem status_word_bits (f : Status) :
    f.word.getLsbD 0 = f.busy ∧ f.word.getLsbD 1 = f.done ∧ f.word.getLsbD 2 = f.err ∧ f.word.getLsbD 3 = f.vok ∧
    f.word.getLsbD 4 = f.accum := by
  obtain ⟨busy, done, err, vok, accum⟩ := f
  revert busy done err vok accum
  decide

theorem status_word_lt (f : Status) : f.word.toNat < 2 ^ 5 := by
  obtain ⟨busy, done, err, vok, accum⟩ := f
  revert busy done err vok accum
  decide

/-- Bits 31:5 of `STATUS` read 0 (rule R25). -/
theorem status_word_reserved (f : Status) (k : Nat) (hk : 5 ≤ k) : f.word.getLsbD k = false := by
  have hlt : f.word.toNat < 2 ^ k := (status_word_lt f).trans_le (Nat.pow_le_pow_right two_pos hk)
  exact Nat.testBit_lt_two_pow hlt

theorem errCode_word_toNat (e : ErrCode) : e.word.toNat = e.number := by
  cases e <;> rfl

/-- No register stands above `VERSION` (rule R23). -/
theorem regAt_above (v : Variant) (a : Nat) (h : 0x04C ≤ a) : regAt v a = none := by
  cases hreg : regAt v a with
  | none => rfl
  | some r =>
    obtain ⟨rfl, -⟩ := regAt_eq_some hreg
    exact absurd h (by cases r <;> decide)

/-- A register of the wrapper stands at no offset without it (rule R23). -/
theorem regAt_of_absent (a : Nat) (h : a = 0x028 ∨ a = 0x02C) : regAt .none a = none := by
  rcases h with rfl | rfl <;> decide

theorem present_of_wrapped {v : Variant} (hv : v ≠ .none) (r : Reg) : r.present v = true := by
  cases r <;> simp [Reg.present, hv]

/-- `MSG_LEN` reads 0 without a wrapper (rule R31). -/
theorem busRead_msgLen (s : State) :
    (s.busRead 0x028 4).busData = if s.params.variant = .none then 0 else s.msgLen := by
  split_ifs with hv
  · rw [busRead_no_reg 0x028 s (hv ▸ regAt_of_absent _ (.inl rfl)), State.answer_busData]
  · exact busRead_stable .msgLen rfl s (present_of_wrapped hv _) (by decide)

/-- Settles O20: the stable registers by `busRead_stable`, the length registers while idle by `busRead_settled`, and the
offsets with no register by `busRead_no_reg`. -/
theorem registerReads : Obligations.RegisterReads := by
  intro s a es h
  refine ⟨_, step_read s a 4 es h, ?_, ?_, ?_, ?_, ?_, ?_, ?_, ?_, ?_, ?_, ?_⟩
  · exact fun ha => busRead_stable .cmd ha (s.withEvents es) rfl (by decide)
  · intro ha
    rw [busRead_stable .status ha (s.withEvents es) rfl (by decide)]
    obtain ⟨hbusy, hdone, herr, hvok, haccum⟩ := status_word_bits s.status
    exact ⟨hbusy, hdone, herr, hvok, haccum, status_word_reserved s.status⟩
  · intro ha
    rw [busRead_stable .errcode ha (s.withEvents es) rfl (by decide)]
    exact errCode_word_toNat s.errCode
  · exact fun ha => busRead_stable .bits ha (s.withEvents es) rfl (by decide)
  · exact fun ha => busRead_stable .cfg ha (s.withEvents es) rfl (by decide)
  · exact fun ha => busRead_stable .cfgSaltLen ha (s.withEvents es) rfl (by decide)
  · exact fun ha => busRead_stable .saltLenOut ha (s.withEvents es) rfl (by decide)
  · rintro rfl; exact busRead_msgLen (s.withEvents es)
  · intro hidle
    refine ⟨?_, ?_, ?_, ?_⟩
    · exact fun ha => busRead_settled .digestLen ha (s.withEvents es) rfl (.inl hidle)
    · exact fun ha => busRead_settled .saltLen ha (s.withEvents es) rfl (.inl hidle)
    · exact fun ha => busRead_settled .emLen ha (s.withEvents es) rfl (.inl hidle)
    · intro ha hv
      exact busRead_settled .accLen ha (s.withEvents es) (present_of_wrapped hv _) (.inl hidle)
  · rintro rfl hv
    rw [busRead_no_reg _ (s.withEvents es) (hv ▸ regAt_of_absent _ (.inr rfl)), State.answer_busData]
  · intro ha
    rw [busRead_no_reg a (s.withEvents es) (regAt_above _ a ha), State.answer_busData]

/-- A stable register that holds a number within the ranges of the parameters reads that number (rules R7, R11). -/
theorem busRead_number {a n : Nat} (r : Reg) (ha : a = r.offset) (s : State) (hp : r.present s.params.variant = true)
    (h : r ≠ .emLen ∧ r ≠ .digestLen ∧ r ≠ .saltLen ∧ r ≠ .accLen) (hval : s.regValue r = BitVec.ofNat 32 n)
    (hn : n ≤ 4096) : (s.busRead a 4).busData.toNat = n := by
  rw [busRead_stable r ha s hp h, hval, toNat_ofNat_of_le hn (by decide)]

theorem msg_cap_le (p : Params) (hv : p.Valid) : Buffer.cap p .msg ≤ 4096 := by
  have := Buffer.cap_le p hv .msg
  simp only [Buffer.base] at this
  omega

theorem variantWord_toNat (v : Variant) :
    (variantWord v).toNat = match v with | .none => 0 | .hashing => 1 | .raw => 2 := by
  cases v <;> rfl

/-- Settles O21: the parameter registers are stable and hold numbers (`busRead_number`). -/
theorem parameterReads : Obligations.ParameterReads := by
  intro s a es hv h
  have hmsg := msg_cap_le s.params hv
  obtain ⟨-, hdigest, hdcap, hem, hemax, hscap, -, -⟩ := hv
  refine ⟨_, step_read s a 4 es h, ?_, ?_, ?_, ?_, ?_, ?_, ?_⟩
  · exact fun ha => busRead_number .paramHlen ha (s.withEvents es) rfl (by decide) rfl (by omega)
  · exact fun ha => busRead_number .paramEmax ha (s.withEvents es) rfl (by decide) rfl hemax
  · exact fun ha => busRead_number .paramScap ha (s.withEvents es) rfl (by decide) rfl hscap
  · exact fun ha => busRead_number .paramDcap ha (s.withEvents es) rfl (by decide) rfl (by omega)
  · exact fun ha => busRead_number .paramMcap ha (s.withEvents es) rfl (by decide) rfl hmsg
  · intro ha
    rw [busRead_stable .paramVariant ha (s.withEvents es) rfl (by decide)]
    exact variantWord_toNat s.params.variant
  · exact fun ha => busRead_stable .version ha (s.withEvents es) rfl (by decide)

/-! ### The buffer windows (rules R40, R64, R242) -/

theorem readWindow_idle (a : Nat) (s : State) (hidle : s.status.busy = false) (ha : bufferByte s.params a = true) :
    s.readWindow a = s.answer ((s.mem.read a).setWidth 32) := by
  simp [State.readWindow, hidle, ha]

theorem readWindow_busy (a : Nat) (s : State) (hbusy : s.status.busy = true) (ha : bufferByte s.params a = true) :
    s.readWindow a = (s.answer ((Config.busyByte s.busyReads).setWidth 32)).countBusyRead := by
  simp [State.readWindow, hbusy, ha]

theorem readWindow_reserved (a : Nat) (s : State) (ha : bufferByte s.params a = false) :
    s.readWindow a = s.answer 0 := by
  simp [State.readWindow, ha]

theorem writeWindow_buffer (a : Nat) (v : Byte) (s : State) (ha : bufferByte s.params a = true) :
    s.writeWindow a v = { s with mem := s.mem.write a v } := by
  simp [State.writeWindow, ha]

theorem writeWindow_reserved (a : Nat) (v : Byte) (s : State) (ha : bufferByte s.params a = false) :
    s.writeWindow a v = s := by
  simp [State.writeWindow, ha]

theorem step_write_buffer (s : State) (b : Buffer) (i : Nat) (v : Word) (es : List Event) (hv : s.params.Valid)
    (hi : i < b.cap s.params) (hidle : s.status.busy = false) (h : s.events = .bus (.write (b.base + i) 1 v) :: es) :
    step s = .next { s with events := es, mem := s.mem.write (b.base + i) (v.setWidth 8) } := by
  obtain ⟨hbyte, -, hbuffer⟩ := b.byte_access s.params hv i hi
  rw [step_write s _ 1 v es h, busWrite_window _ v (s.withEvents es) hidle hbyte,
    writeWindow_buffer _ _ (s.withEvents es) hbuffer]
  rfl

theorem step_read_buffer (s : State) (b : Buffer) (i : Nat) (es : List Event) (hv : s.params.Valid)
    (hi : i < b.cap s.params) (hidle : s.status.busy = false) (h : s.events = .bus (.read (b.base + i) 1) :: es) :
    step s = .next { s with events := es, busData := (s.bufByte b i).setWidth 32 } := by
  obtain ⟨hbyte, -, hbuffer⟩ := b.byte_access s.params hv i hi
  rw [step_read s _ 1 es h, busRead_window _ _ hbyte, readWindow_idle _ (s.withEvents es) hidle hbuffer]
  rfl

/-- Settles O22: the write stores one byte (`Memory.read_write`), and the read after it reads that byte back. -/
theorem bufferWriteThenRead : Obligations.BufferWriteThenRead := by
  intro s b i v es hv hi hidle h
  have hbyte (m : Memory) : (m.write (b.base + i) (v.setWidth 8)).read (b.base + i) = v.setWidth 8 :=
    m.read_write_same _ _
  exact ⟨_, _, step_write_buffer s b i v _ hv hi hidle h, rfl, hbyte _, fun a ha => Memory.read_write_other _ _ _ a ha,
    step_read_buffer _ b i es hv hi hidle rfl, congrArg (BitVec.setWidth 32) (hbyte _)⟩

/-- Settles O23: `bufferByte_iff` at an offset below or past every buffer. -/
theorem reservedWindow : Obligations.ReservedWindow := by
  intro s a es hlow hhigh hout
  have hbyte : byteAccess a 1 = true := (byteAccess_iff a 1).2 ⟨rfl, hlow, hhigh⟩
  have hbuffer : bufferByte s.params a = false := by
    rw [← Bool.not_eq_true, bufferByte_iff]
    rintro ⟨b, hb⟩
    have := hout b
    omega
  constructor
  · intro v h
    rw [step_write s a 1 v es h]
    cases hbusy : s.status.busy
    · rw [busWrite_window a v (s.withEvents es) hbusy hbyte, writeWindow_reserved a _ (s.withEvents es) hbuffer]
      rfl
    · rw [State.busWrite_busy a 1 v (s.withEvents es) hbusy]
      rfl
  · intro h
    rw [step_read s a 1 es h, busRead_window a _ hbyte, readWindow_reserved a (s.withEvents es) hbuffer]
    rfl

/-- Settles O24: `readWindow_busy` at a byte of a buffer. -/
theorem busyBufferReadFree : Obligations.BusyBufferReadFree := by
  intro s b i es hv hi hbusy h
  obtain ⟨hbyte, -, hbuffer⟩ := b.byte_access s.params hv i hi
  rw [step_read s _ 1 es h, busRead_window _ _ hbyte, readWindow_busy _ (s.withEvents es) hbusy hbuffer]
  rfl

end Sys2Proof.Proofs
end

/-! ## Proofs: steps (spec `30_encoding.md` rules R82 to R84, `70_reset_and_hazards.md`) -/
section
namespace Sys2Proof.Proofs
open Sys2Proof.Machine

/-! ### Everything a step can do -/

theorem completion_of_ok {i : Instr} {s : State} (h : decode s.params.variant s.opLatch = .ok i) :
    s.completion = exec i s := by
  rw [State.completion, h]

theorem completion_of_error {e : DecodeError} {s : State} (h : decode s.params.variant s.opLatch = .error e) :
    s.completion = .next (s.raise .illegalCmd) := by
  rw [State.completion, h]

theorem coreTurn_busy (s : State) (h : s.status.busy = true) : s.coreTurn = s.completion := by
  rw [State.coreTurn, if_pos h]

theorem coreTurn_idle (s : State) (h : s.status.busy = false) : s.coreTurn = .next s :=
  if_neg (by simp [h])

/-- The ends of a completion step: the illegal command's, or those of the decoded command (rules R83, R84). -/
inductive CompletionEnds (s : State) : State → Prop
  | illegal (e : DecodeError) (h : decode s.params.variant s.opLatch = .error e) :
      CompletionEnds s (s.raise .illegalCmd)
  | command {t : State} (i : Instr) (h : decode s.params.variant s.opLatch = .ok i) (ht : Ends s i t) :
      CompletionEnds s t

theorem completion_ends (s : State) : ∃ t, s.completion = .next t ∧ CompletionEnds s t := by
  cases hd : decode s.params.variant s.opLatch with
  | error e => exact ⟨_, completion_of_error hd, .illegal e hd⟩
  | ok i =>
    obtain ⟨t, ht, hends⟩ := exec_ends i s
    exact ⟨t, (completion_of_ok hd).trans ht, .command i hd hends⟩

/-- The ends of a step: one constructor per agent and, for the core, per state of `BUSY` (log 8). -/
inductive StepEnds (s : State) : State → Prop
  | idle (hc : s.CoreNext) (h : s.status.busy = false) : StepEnds s s.taken
  | completes {t : State} (hc : s.CoreNext) (h : s.status.busy = true) (ht : CompletionEnds s.taken t) : StepEnds s t
  | bus (op : BusOp) (es : List Event) (h : s.events = .bus op :: es) : StepEnds s ((s.withEvents es).busStep op)
  | reset (es : List Event) (h : s.events = .reset :: es) : StepEnds s (s.withEvents es).hardReset

theorem step_ends (s : State) : ∃ t, step s = .next t ∧ StepEnds s t := by
  rcases step_cases s with ⟨hc, hstep⟩ | ⟨op, es, he, hstep⟩ | ⟨es, he, hstep⟩
  · cases hb : s.status.busy
    · exact ⟨_, hstep.trans (coreTurn_idle s.taken hb), .idle hc hb⟩
    · obtain ⟨t, ht, hends⟩ := completion_ends s.taken
      exact ⟨t, hstep.trans ((coreTurn_busy s.taken hb).trans ht), .completes hc hb hends⟩
  · exact ⟨_, hstep, .bus op es he⟩
  · exact ⟨_, hstep, .reset es he⟩

theorem stepEnds_of_step {s t : State} (h : step s = .next t) : StepEnds s t := by
  obtain ⟨u, hu, hends⟩ := step_ends s
  rw [h, Host.Outcome.next.injEq] at hu
  exact hu ▸ hends

/-- Settles O9: `step_ends`. -/
theorem stepNeverStops : Obligations.StepNeverStops :=
  fun s => (step_ends s).imp fun _ h => h.1

/-! ### The core's turn (rules R73, R83, R84) -/

/-- Settles O4: the core's turn while busy is the completion of the decoded command. -/
theorem stepRunsDecodedCommand : Obligations.StepRunsDecodedCommand := by
  intro s i hnext hbusy hdecode
  rw [step_coreNext s hnext, coreTurn_busy s.taken hbusy, completion_of_ok (s := s.taken) hdecode]

/-- Settles O7: `coreTurn_idle`. -/
theorem idleCoreStill : Obligations.IdleCoreStill := by
  intro s hnext hidle
  rw [step_coreNext s hnext, coreTurn_idle s.taken hidle]

theorem step_write_cmd (s : State) (v : Word) (es : List Event) (h : s.events = .bus (.write 0x000 4 v) :: es)
    (hidle : s.status.busy = false) : step s = .next ((s.withEvents es).startCommand v) :=
  step_write_reg s .cmd v es h hidle rfl

/-- Settles O5: a write to `CMD` is `State.startCommand`. -/
theorem commandStart : Obligations.CommandStart :=
  fun s v es h hidle => step_write_cmd s v es h hidle

/-- Settles O6: the write starts the command; the word decodes to nothing by `illegalWordsExact`, so the core's turn is
the illegal command's completion. -/
theorem illegalCommandReported : Obligations.IllegalCommandReported := by
  intro s w es h hidle hillegal
  refine ⟨rfl, _, step_write_cmd s w _ h hidle, rfl, ?_⟩
  rw [step_coreNext _ (.inr rfl), coreTurn_busy _ rfl]
  cases hd : decode s.params.variant w with
  | error e => exact completion_of_error hd
  | ok i => exact absurd hd ((illegalWordsExact s.params.variant w).2 hillegal i)

/-! ### Host transactions while a command runs (rules R73, R241, R242) -/

theorem busStep_busy (op : BusOp) (s : State) (hbusy : s.status.busy = true) :
    ∃ d k, s.busStep op = { s with busData := d, busyReads := k } := by
  cases op with
  | read a n => exact s.busRead_frame a n
  | write a n v => exact ⟨_, _, s.busWrite_busy a n v hbusy⟩

theorem run_succ_of_step {s t : State} (n : Nat) (h : step s = .next t) :
    Host.Core.run Sys2Proof.core (n + 1) s = Host.Core.run Sys2Proof.core n t := by
  have hcore : Sys2Proof.core.step s = .next t := h
  simp only [Host.Core.run, hcore]

/-- Settles O8: by induction on the transactions, each of which is `busStep_busy`. -/
theorem commandInputsFrozen : Obligations.CommandInputsFrozen := by
  intro ops
  induction ops with
  | nil =>
    intro s es _ h
    have hcore : Event.core :: es = s.events := h.symm
    refine ⟨s.busData, s.busyReads, ?_⟩
    rw [hcore]
    rfl
  | cons op ops ih =>
    intro s es hbusy h
    obtain ⟨d, k, hop⟩ := busStep_busy op (s.withEvents (ops.map Event.bus ++ .core :: es)) hbusy
    have hstep := (step_bus s op _ h).trans (congrArg Host.Outcome.next hop)
    obtain ⟨d', k', hrun⟩ := ih { s with events := _, busData := d, busyReads := k } es hbusy rfl
    exact ⟨d', k', (run_succ_of_step ops.length hstep).trans hrun⟩

/-! ### What the host's transactions leave alone -/

theorem writeReg_owned (r : Reg) (v : Word) (s : State) :
    (s.writeReg r v).params = s.params ∧ (s.writeReg r v).acc = s.acc ∧ (s.writeReg r v).accLen = s.accLen ∧
    (s.writeReg r v).status.accum = s.status.accum := by
  cases r <;> exact ⟨rfl, rfl, rfl, rfl⟩

/-- No transaction touches the parameters or the accumulator (rules R36, R178). -/
theorem busStep_owned (op : BusOp) (s : State) :
    (s.busStep op).params = s.params ∧ (s.busStep op).acc = s.acc ∧ (s.busStep op).accLen = s.accLen ∧
    (s.busStep op).status.accum = s.status.accum := by
  cases op with
  | read a n =>
    obtain ⟨d, k, h⟩ := s.busRead_frame a n
    rw [State.busStep, h]
    exact ⟨rfl, rfl, rfl, rfl⟩
  | write a n v =>
    rw [State.busStep]
    rcases s.busWrite_cases a n v with h | ⟨-, r, -, h⟩ | ⟨-, -, h⟩
    · rw [h]; exact ⟨rfl, rfl, rfl, rfl⟩
    · rw [h]; exact writeReg_owned r v s
    · rw [h]; exact ⟨rfl, rfl, rfl, rfl⟩

/-- Settles O13: no end of a step changes the parameters. -/
theorem parametersConstant : Obligations.ParametersConstant := by
  intro s t h
  cases stepEnds_of_step h with
  | idle => rfl
  | completes _ _ ht =>
    cases ht with
    | illegal => rfl
    | command i _ ht => exact ht.writeColumns.host_side.2.2.1
  | bus op es => exact (busStep_owned op (s.withEvents es)).1
  | reset es => rfl

/-- Settles O14: every end of a step but reset and the completions of UPDATE and FINALIZE keeps the accumulator
(`WriteColumns.accumulator`, `busStep_owned`). -/
theorem accumulatorOwners : Obligations.AccumulatorOwners := by
  intro s t h hchange
  have hkept : ¬ (t.acc = s.acc ∧ t.accLen = s.accLen ∧ t.status.accum = s.status.accum) := by
    rintro ⟨hacc, hlen, haccum⟩
    simp [hacc, hlen, haccum] at hchange
  cases stepEnds_of_step h with
  | idle => exact absurd ⟨rfl, rfl, rfl⟩ hkept
  | completes hc hbusy ht =>
    refine .inr ⟨hc, hbusy, ?_⟩
    cases ht with
    | illegal => exact absurd ⟨rfl, rfl, rfl⟩ hkept
    | command i hd ht =>
      by_cases hu : i = .update
      · exact .inl (hu ▸ hd)
      · by_cases hf : i = .finalize
        · exact .inr (hf ▸ hd)
        · exact absurd (ht.writeColumns.accumulator hu hf) hkept
  | bus op es => exact absurd (busStep_owned op (s.withEvents es)).2 hkept
  | reset es he => exact .inl (he ▸ rfl)

/-! ### Length registers while a command runs (rules R63, R242) -/

theorem EncodeEnds.emLen_of_not_ready {s t : State} (h : EncodeEnds s t) (hn : ¬ s.EncodeReady) :
    t.emLen = s.emLen := by
  cases h with
  | refused => rfl
  | misbuilt h | delivered _ h => exact absurd h hn

/-- A length register that the command will not write (`State.WritesLength`) is the same after it. -/
theorem Ends.length_kept {s t : State} {i : Instr} {r : Reg} (h : Ends s i t) (hw : ¬ s.WritesLength i r)
    (hr : r = .emLen ∨ r = .digestLen ∨ r = .saltLen ∨ r = .accLen) : t.regValue r = s.regValue r := by
  cases h with
  | absent | maskRefused | maskDone | verifyFalse | verifyTrue | updateRefused | encodeRndRefused =>
    rcases hr with rfl | rfl | rfl | rfl <;> rfl
  | encode h =>
    rcases hr with rfl | rfl | rfl | rfl
    · exact h.emLen_of_not_ready fun hready => hw (.inl ⟨rfl, rfl, hready⟩)
    · exact h.writeColumns.digestLen (by decide)
    · exact (h.writeColumns.saltLen (by decide)).1
    · exact (h.writeColumns.accumulator (by decide) (by decide)).2.1
  | updateDone _ hfit =>
    rcases hr with rfl | rfl | rfl | rfl
    · rfl
    · rfl
    · rfl
    · exact absurd (.inr (.inl ⟨rfl, rfl, hfit⟩)) hw
  | finalizeRefused =>
    rcases hr with rfl | rfl | rfl | rfl
    · rfl
    · rfl
    · rfl
    · exact absurd (.inr (.inr (.inl ⟨rfl, .inl rfl⟩))) hw
  | finalizeDone _ _ hfin =>
    rcases hr with rfl | rfl | rfl | rfl
    · rfl
    · exact absurd (.inr (.inr (.inl ⟨rfl, .inr ⟨rfl, hfin⟩⟩))) hw
    · rfl
    · exact absurd (.inr (.inr (.inl ⟨rfl, .inl rfl⟩))) hw
  | encodeRndDrawn hcap h =>
    rcases hr with rfl | rfl | rfl | rfl
    · refine h.emLen_of_not_ready fun ⟨hdigest, hbits, hem, _⟩ => hw ?_
      exact .inr (.inr (.inr ⟨rfl, hcap, .inr ⟨rfl, hdigest, hbits, hem⟩⟩))
    · exact h.writeColumns_drawSalt.digestLen (by decide)
    · exact absurd (.inr (.inr (.inr ⟨rfl, hcap, .inl rfl⟩))) hw
    · exact (h.writeColumns_drawSalt.accumulator (by decide) (by decide)).2.1

/-- Settles O25: `State.writePending_iff` decides which of `State.readReg_pending` and `State.readReg_settled` the read
is; that the command keeps the register is `Ends.length_kept`. -/
theorem busyRegisterReads : Obligations.BusyRegisterReads := by
  intro s r es hp hbusy h
  have hread := step_read s _ 4 es h
  rw [busRead_reg r (s.withEvents es) hp] at hread
  constructor
  · intro hpending
    have hwill : (s.withEvents es).writePending r = true := (State.writePending_iff r _).2 hpending
    rw [hread, State.readReg_pending r (s.withEvents es) hbusy hwill]
    rfl
  · intro hsettled
    have hnot : (s.withEvents es).writePending r = false := by
      rw [← Bool.not_eq_true, State.writePending_iff]
      rintro ⟨i, hd, hw⟩
      exact hsettled i hd hw
    constructor
    · rw [hread, State.readReg_settled r _ (.inr hnot)]
      cases r <;> rfl
    · intro hr
      obtain ⟨u, hu, hends⟩ := completion_ends s.taken
      refine ⟨u, hu, ?_⟩
      cases hends with
      | illegal => rcases hr with rfl | rfl | rfl | rfl <;> rfl
      | command i hd ht =>
        have hkept := ht.length_kept (hsettled i hd) hr
        rw [hkept]
        cases r <;> rfl

end Sys2Proof.Proofs
end

/-! ## Proofs: reset and the invariant (spec `10_state.md` sections 3 to 6, `70_reset_and_hazards.md`) -/
section
namespace Sys2Proof.Proofs
open Sys2Proof.Machine

/-! ### Reset (rules R54, R230, R231) -/

theorem resetOf_inv (p : Params) (hv : p.Valid) : (State.resetOf p).Inv := by
  refine ⟨hv, ?_, BitVec.extractLsb'_zero .., ⟨rfl, nofun, rfl⟩, rfl, fun _ => rfl, fun _ => ⟨rfl, rfl⟩⟩
  simp [State.FlagsConsistent, State.resetOf]

/-- Settles O11: `resetOf_inv` for all legal parameters, the model's own among them. -/
theorem resetHasInvariant : Obligations.ResetHasInvariant :=
  ⟨resetOf_inv, resetOf_inv Config.params (by decide)⟩

/-- Settles O10: each field of `State.hardReset` is that of the reset state. -/
theorem resetFromAnyState : Obligations.ResetFromAnyState := by
  intro s es h
  exact ⟨_, step_reset s es h, rfl, rfl, rfl, rfl, rfl, rfl, rfl, rfl, rfl, rfl, rfl, rfl, rfl, rfl,
    Memory.read_nil, Memory.read_nil, rfl, rfl, rfl, rfl⟩

/-! ### The flags after a completion (rules R25, R26, R34) -/

theorem inProgress_of_busy (s : State) (h : s.FlagsConsistent) (hbusy : s.status.busy = true) : s.InProgress := by
  obtain ⟨hdone, herr, hvok, hcode, hsalt⟩ := h
  have hd : s.status.done = false := Bool.eq_false_iff.2 fun hd => hdone ⟨hbusy, hd⟩
  have he : s.status.err = false := Bool.eq_false_iff.2 fun he => by simp [hd] at herr; simp [herr] at he
  have hk : s.status.vok = false := Bool.eq_false_iff.2 fun hk => by simp [hd] at hvok; simp [hvok] at hk
  exact ⟨hbusy, hd, he, hk, hcode.1 he, hsalt hk⟩

theorem complete_flagsConsistent (s : State) (h : s.InProgress) : s.complete.FlagsConsistent := by
  obtain ⟨-, -, herr, hvok, hcode, hsalt⟩ := h
  simp [State.FlagsConsistent, herr, hvok, hcode, hsalt]

theorem raise_flagsConsistent (e : ErrCode) (he : e ≠ .none) (s : State) (h : s.InProgress) :
    (s.raise e).FlagsConsistent := by
  obtain ⟨-, -, -, hvok, -, hsalt⟩ := h
  simp [State.FlagsConsistent, hvok, hsalt, he]

theorem acceptVerify_flagsConsistent (sl : Nat) (s : State) (h : s.InProgress) :
    (s.acceptVerify sl).FlagsConsistent := by
  obtain ⟨-, -, herr, -, hcode, -⟩ := h
  simp [State.FlagsConsistent, herr, hcode]

theorem EncodeEnds.flagsConsistent {s t : State} (h : EncodeEnds s t) (hs : s.InProgress) : t.FlagsConsistent := by
  cases h with
  | refused e hcode => exact raise_flagsConsistent e (by rcases hcode with rfl | rfl | rfl <;> decide) s hs
  | misbuilt => exact raise_flagsConsistent _ (by decide) s hs
  | delivered => exact complete_flagsConsistent _ hs

theorem Ends.flagsConsistent {s t : State} {i : Instr} (h : Ends s i t) (hs : s.InProgress) : t.FlagsConsistent := by
  cases h with
  | absent | maskRefused | updateRefused | encodeRndRefused => exact raise_flagsConsistent _ (by decide) s hs
  | finalizeRefused => exact raise_flagsConsistent _ (by decide) (s.setAcc [] false) hs
  | maskDone | verifyFalse | updateDone | finalizeDone => exact complete_flagsConsistent _ hs
  | verifyTrue sl => exact acceptVerify_flagsConsistent sl s hs
  | encode h => exact h.flagsConsistent hs
  | encodeRndDrawn _ h => exact h.flagsConsistent (s := s.drawSalt collab) hs

/-! ### The byte store (rules R40, R51) -/

/-- Bytes that fit an existing buffer keep the store canonical. -/
theorem storeBuf_memoryCanonical (b : Buffer) (bs : List Byte) (s : State) (h : s.MemoryCanonical)
    (hfit : bs.length ≤ b.cap s.params) : (s.storeBuf b bs).MemoryCanonical := by
  obtain ⟨hwf, hlisted, hwork⟩ := h
  refine ⟨Memory.wf_writeBytes _ _ _ hwf, fun x hx => ?_, hwork⟩
  rcases Memory.listed_writeBytes _ _ _ x hx with ⟨hlow, hhigh⟩ | hx
  · exact (bufferByte_iff s.params x.1).2 ⟨b, hlow, by omega⟩
  · exact hlisted x hx

theorem drawSalt_memoryCanonical (s : State) (h : s.MemoryCanonical) (hfit : s.cfgSaltLen.toNat ≤ s.params.scap) :
    (s.drawSalt collab).MemoryCanonical :=
  storeBuf_memoryCanonical .salt _ s h (by simpa [Buffer.cap] using hfit)

theorem EncodeEnds.memoryCanonical {s t : State} (h : EncodeEnds s t) (hs : s.MemoryCanonical) :
    t.MemoryCanonical := by
  cases h with
  | refused | misbuilt => exact hs
  | delivered _ hready hlen => exact storeBuf_memoryCanonical .em _ s hs (hlen.trans_le hready.2.2.1)

theorem Ends.memoryCanonical {s t : State} {i : Instr} (h : Ends s i t) (hv : s.params.Valid)
    (hs : s.MemoryCanonical) : t.MemoryCanonical := by
  cases h with
  | absent | maskRefused | updateRefused | updateDone | finalizeRefused | encodeRndRefused => exact hs
  | verifyFalse | verifyTrue => exact ⟨hs.1, hs.2.1, rfl⟩
  | maskDone hem =>
    refine storeBuf_memoryCanonical .em _ s hs ?_
    rw [xorMask_length _ _ _ _ hv.1, State.emOperand_length]
    exact hem
  | encode h => exact h.memoryCanonical hs
  | finalizeDone d hd => exact storeBuf_memoryCanonical .digest d s hs (hd.trans_le hv.2.1)
  | encodeRndDrawn hcap h => exact h.memoryCanonical (drawSalt_memoryCanonical s hs hcap)

/-! ### The wrapper's state (rules R35, R178) -/

theorem WriteColumns.wrapperConsistent {s t : State} {i : Instr} (h : WriteColumns s t i) (hu : i ≠ .update)
    (hf : i ≠ .finalize) (hs : s.WrapperConsistent) : t.WrapperConsistent := by
  obtain ⟨hacc, hlen, haccum⟩ := h.accumulator hu hf
  obtain ⟨-, -, hparams, -, -, -, hmsg, -⟩ := h.host_side
  rw [State.WrapperConsistent, hacc, hlen, haccum, hparams, hmsg]
  exact hs

theorem Ends.wrapperConsistent {s t : State} {i : Instr} (h : Ends s i t) (hs : s.WrapperConsistent) :
    t.WrapperConsistent := by
  cases h with
  | absent | maskRefused | maskDone | verifyFalse | verifyTrue | updateRefused | encodeRndRefused => exact hs
  | encode h => exact h.writeColumns.wrapperConsistent (by decide) (by decide) hs
  | encodeRndDrawn _ h => exact h.writeColumns_drawSalt.wrapperConsistent (by decide) (by decide) hs
  | updateDone hv => exact ⟨rfl, nofun, fun hnone => absurd hnone hv⟩
  | finalizeRefused | finalizeDone => exact ⟨rfl, fun _ => rfl, fun hnone => ⟨rfl, (hs.2.2 hnone).2⟩⟩

/-! ### Every step keeps the invariant -/

theorem Ends.inv {s t : State} {i : Instr} (h : Ends s i t) (hs : s.Inv) (hbusy : s.status.busy = true) : t.Inv := by
  obtain ⟨hv, hflags, hcfg, hmem, hwrap⟩ := hs
  obtain ⟨-, -, hparams, -, hkept, -⟩ := h.writeColumns.host_side
  refine ⟨hparams ▸ hv, h.flagsConsistent (inProgress_of_busy s hflags hbusy), ?_, h.memoryCanonical hv hmem,
    h.wrapperConsistent hwrap⟩
  rw [State.ReservedClear, hkept]
  exact hcfg

theorem CompletionEnds.inv {s t : State} (h : CompletionEnds s t) (hs : s.Inv) (hbusy : s.status.busy = true) :
    t.Inv := by
  cases h with
  | illegal =>
    obtain ⟨hv, hflags, hrest⟩ := hs
    exact ⟨hv, raise_flagsConsistent _ (by decide) s (inProgress_of_busy s hflags hbusy), hrest⟩
  | command i _ h => exact h.inv hs hbusy

/-- `CFG` keeps bit 0 only, so its reserved bits stay clear (rule R32). -/
theorem and_one_reserved (v : Word) : (v &&& 1).extractLsb' 1 31 = 0 := by
  apply BitVec.eq_of_toNat_eq
  rw [BitVec.extractLsb'_toNat, BitVec.toNat_and]
  have hbit : v.toNat &&& 1 < 2 ^ 1 := Nat.and_lt_two_pow _ (by decide)
  rw [Nat.shiftRight_eq_div_pow]
  exact congrArg (· % 2 ^ 31) (Nat.div_eq_of_lt hbit)

theorem startCommand_inv (v : Word) (s : State) (h : s.Inv) : (s.startCommand v).Inv := by
  obtain ⟨hv, -, hrest⟩ := h
  refine ⟨hv, ?_, hrest⟩
  simp [State.FlagsConsistent]

theorem writeReg_inv (r : Reg) (v : Word) (s : State) (h : s.Inv) (hp : r.present s.params.variant = true) :
    (s.writeReg r v).Inv := by
  cases r with
  | cmd => exact startCommand_inv v s h
  | cfg =>
    obtain ⟨hv, hflags, -, hrest⟩ := h
    exact ⟨hv, hflags, and_one_reserved v, hrest⟩
  | msgLen =>
    obtain ⟨hv, hflags, hcfg, hmem, hlen, hidle, -⟩ := h
    refine ⟨hv, hflags, hcfg, hmem, hlen, hidle, fun hnone => ?_⟩
    simp [Reg.present, show s.params.variant = .none from hnone] at hp
  | bits | digestLen | saltLen | emLen | cfgSaltLen => exact h
  | status | errcode | saltLenOut | accLen | paramHlen | paramEmax | paramScap | paramDcap | paramMcap
  | paramVariant | version => exact h

theorem busStep_inv (op : BusOp) (s : State) (h : s.Inv) : (s.busStep op).Inv := by
  cases op with
  | read a n =>
    obtain ⟨d, k, hread⟩ := s.busRead_frame a n
    rw [State.busStep, hread]
    exact h
  | write a n v =>
    rw [State.busStep]
    rcases s.busWrite_cases a n v with hw | ⟨-, r, hr, hw⟩ | ⟨-, hbuffer, hw⟩
    · rw [hw]
      exact h
    · rw [hw]
      exact writeReg_inv r v s h (regAt_eq_some hr).2
    · rw [hw]
      obtain ⟨hv, hflags, hcfg, ⟨hwf, hlisted, hwork⟩, hwrap⟩ := h
      refine ⟨hv, hflags, hcfg, ⟨Memory.wf_write _ _ _ hwf, fun x hx => ?_, hwork⟩, hwrap⟩
      rcases Memory.listed_write _ _ _ x hx with rfl | hx
      · exact hbuffer
      · exact hlisted x hx

/-- Settles O12: one lemma per end of a step; the agents' schedule is no part of the invariant. -/
theorem stepKeepsInvariant : Obligations.StepKeepsInvariant := by
  intro s t hs h
  cases stepEnds_of_step h with
  | idle => exact hs
  | completes _ hbusy ht => exact ht.inv hs hbusy
  | bus op es => exact busStep_inv op (s.withEvents es) hs
  | reset es => exact resetOf_inv s.params hs.1

end Sys2Proof.Proofs
end

/-! ## Proofs: results of MASK and ENCODE (spec `40_mask_generator.md`, `41_encode.md`) -/
section
namespace Sys2Proof.Proofs
open Sys2Proof.Machine

/-! ### Bytes of a buffer, and of a buffer just written -/

theorem buf_getD (b : Buffer) (n j : Nat) (s : State) (hj : j < n) : (s.buf b n).getD j 0 = s.bufByte b j := by
  have hlen : j < (s.mem.readBytes b.base n).length := by rwa [Memory.readBytes_length]
  rw [State.buf, List.getD_eq_getElem _ _ hlen, Memory.readBytes_getElem, State.bufByte]

theorem storeBuf_bufByte (b : Buffer) (bs : List Byte) (s : State) (j : Nat) (hj : j < bs.length) :
    (s.storeBuf b bs).bufByte b j = bs.getD j 0 := by
  rw [State.bufByte, State.storeBuf_mem, Memory.read_writeBytes_inside _ _ _ _ hj, List.getD_eq_getElem _ _ hj]

theorem storeBuf_buf_same (b : Buffer) (bs : List Byte) (s : State) : (s.storeBuf b bs).buf b bs.length = bs :=
  Memory.readBytes_writeBytes _ _ _

theorem storeBuf_buf_other (b b' : Buffer) (bs : List Byte) (n : Nat) (s : State)
    (h : b.base + n ≤ b'.base ∨ b'.base + bs.length ≤ b.base) : (s.storeBuf b' bs).buf b n = s.buf b n :=
  Memory.readBytes_writeBytes_apart _ _ _ _ _ h

/-- `SALT` ends where `EM` begins at the latest (rules R11, R40). -/
theorem scap_le {p : Params} (hv : p.Valid) : p.scap ≤ 4096 := by
  obtain ⟨-, -, -, -, -, h, -, -⟩ := hv
  exact h

/-- A digest fits the window of `DIGEST` (rules R7, R40). -/
theorem hlen_le {p : Params} (hv : p.Valid) : p.hlen ≤ 256 := by
  obtain ⟨-, h, h', -⟩ := hv
  exact h.trans h'

/-- The digest operand lies below the EM buffer (rules R11, R40). -/
theorem digestOperand_storeBuf_em (bs : List Byte) (s : State) (hv : s.params.Valid)
    (hfit : s.digestLen.toNat ≤ s.params.dcap) : (s.storeBuf .em bs).digestOperand = s.digestOperand := by
  obtain ⟨-, -, hdcap, -⟩ := hv
  exact storeBuf_buf_other .digest .em bs s.digestLen.toNat s (.inl (by simp only [Buffer.base]; omega))

/-- Writing back what stood under a run restores a canonical store: stores that read alike are equal. -/
theorem storeBuf_restore (b : Buffer) (bs : List Byte) (n : Nat) (s : State) (hn : bs.length = n)
    (hwf : s.mem.wf = true) : ((s.storeBuf b bs).storeBuf b (s.buf b n)).mem = s.mem := by
  have hwf' := Memory.wf_writeBytes _ b.base (s.buf b n) (Memory.wf_writeBytes _ b.base bs hwf)
  refine Memory.eq_of_read _ _ hwf' hwf fun a => ?_
  rw [State.storeBuf_mem, Memory.read_writeBytes, State.buf_length]
  split_ifs with hin
  · obtain ⟨j, rfl⟩ := Nat.exists_eq_add_of_le hin.1
    rw [Nat.add_sub_cancel_left]
    exact buf_getD b n j s (by omega)
  · exact storeBuf_read_outside b bs s a (by omega)

/-! ### The mask (rules R100, R102, R103) -/

/-- Settles O31: byte by byte, `mgf_getElem?` does not depend on the length asked for. -/
theorem mgfShorterIsBeginning : Obligations.MgfShorterIsBeginning := by
  intro c hlen seed n m h hnm
  apply List.ext_getElem?
  intro j
  rcases Nat.lt_or_ge j n with hj | hj
  · rw [List.getElem?_take_of_lt hj, mgf_getElem? c hlen seed n j h hj,
      mgf_getElem? c hlen seed m j h (hj.trans_le hnm)]
  · rw [List.getElem?_take_eq_none hj, List.getElem?_eq_none (by rwa [mgf_length c hlen seed n h])]

theorem xorMask_getD (c : Collab) (hlen : Nat) (buf seed : List Byte) (h : 1 ≤ hlen) (j : Nat)
    (hj : j < buf.length) : (xorMask c hlen buf seed).getD j 0 =
      buf.getD j 0 ^^^ (mgf c hlen seed buf.length).getD j 0 := by
  have hmask : j < (mgf c hlen seed buf.length).length := by rwa [mgf_length c hlen seed _ h]
  have hxor : j < (xorMask c hlen buf seed).length := by rwa [xorMask_length c hlen buf seed h]
  rw [List.getD_eq_getElem _ _ hj, List.getD_eq_getElem _ _ hmask, List.getD_eq_getElem _ _ hxor]
  exact xorBytes_getElem _ _ _ _

/-- Masking twice with one seed restores the bytes (rule R103). -/
theorem xorMask_xorMask (c : Collab) (hlen : Nat) (buf seed : List Byte) (h : 1 ≤ hlen) :
    xorMask c hlen (xorMask c hlen buf seed) seed = buf := by
  have hlength := xorMask_length c hlen buf seed h
  apply List.ext_getElem
  · rw [xorMask_length _ _ _ _ h, hlength]
  · intro j hleft hright
    rw [← List.getD_eq_getElem _ 0 hleft, xorMask_getD c hlen _ seed h j (hlength ▸ hright), hlength,
      xorMask_getD c hlen buf seed h j hright, BitVec.xor_assoc, BitVec.xor_self, BitVec.xor_zero,
      List.getD_eq_getElem _ _ hright]

/-! ### MASK (rules R105, R107) -/

/-- What MASK makes of the EM operand. -/
def maskedOperand (c : Collab) (s : State) : List Byte := xorMask c s.params.hlen s.emOperand s.digestOperand

theorem maskedOperand_length (c : Collab) (s : State) (hv : s.params.Valid) :
    (maskedOperand c s).length = s.emLen.toNat := by
  rw [maskedOperand, xorMask_length _ _ _ _ hv.1, State.emOperand_length]

theorem maskedOperand_getD (c : Collab) (s : State) (hv : s.params.Valid) (j : Nat) (hj : j < s.emLen.toNat) :
    (maskedOperand c s).getD j 0 =
      s.bufByte .em j ^^^ (mgf c s.params.hlen s.digestOperand s.emLen.toNat).getD j 0 := by
  rw [maskedOperand, xorMask_getD _ _ _ _ hv.1 j (by simpa using hj), State.emOperand_length, State.emOperand,
    buf_getD .em _ j s hj]

theorem maskCommand_of_fit (c : Collab) (s : State) (hdigest : s.digestLen.toNat ≤ s.params.dcap)
    (hem : s.emLen.toNat ≤ s.params.emax) : maskCommand c s = (s.storeBuf .em (maskedOperand c s)).complete := by
  simpa [maskedOperand, hdigest.not_gt, hem.not_gt, hdigest, hem] using maskCommand_cases c s

/-- Settles O32: `maskCommand_of_fit`, inside the operand `maskedOperand_getD`, outside it unchanged. -/
theorem maskResult : Obligations.MaskResult := by
  intro s hv hdigest hem
  have hlen := maskedOperand_length collab s hv
  refine ⟨_, congrArg Host.Outcome.next (maskCommand_of_fit collab s hdigest hem), fun j hj => ?_, fun a ha => ?_, rfl⟩
  · rw [← maskedOperand_getD collab s hv j hj]
    exact storeBuf_bufByte .em _ s j (hj.trans_eq hlen.symm)
  · exact storeBuf_read_outside .em _ s a (by rwa [hlen])

/-- A second MASK finds the same seed and the masked operand, so it makes the first operand again (rule R107 (d)). -/
theorem maskedOperand_again (c : Collab) (s : State) (w : Word) (hv : s.params.Valid)
    (hdigest : s.digestLen.toNat ≤ s.params.dcap) :
    maskedOperand c ((s.storeBuf .em (maskedOperand c s)).complete.startCommand w) = s.emOperand := by
  have hem := storeBuf_buf_same .em (maskedOperand c s) s
  rw [maskedOperand_length c s hv] at hem
  have hseed := digestOperand_storeBuf_em (maskedOperand c s) s hv hdigest
  calc xorMask c s.params.hlen ((s.storeBuf .em (maskedOperand c s)).buf .em s.emLen.toNat)
          (s.storeBuf .em (maskedOperand c s)).digestOperand
      _ = xorMask c s.params.hlen (maskedOperand c s) s.digestOperand := by rw [hem, hseed]
      _ = s.emOperand := xorMask_xorMask c s.params.hlen s.emOperand s.digestOperand hv.1

/-- Settles O34: the second MASK writes back the bytes that stood there (`maskedOperand_again`), which restores the
store (`storeBuf_restore`). -/
theorem maskTwiceRestores : Obligations.MaskTwiceRestores := by
  intro s w hv hwf hdigest hem
  refine ⟨_, _, congrArg Host.Outcome.next (maskCommand_of_fit collab s hdigest hem),
    congrArg Host.Outcome.next (maskCommand_of_fit collab _ hdigest hem), ?_⟩
  rw [maskedOperand_again collab s w hv hdigest]
  exact storeBuf_restore .em _ _ s (maskedOperand_length collab s hv) hwf

/-! ### The encoded message byte by byte (rules R125 to R129) -/

theorem clearTop_getD_zero (t : Nat) (l : List Byte) : (clearTop t l).getD 0 0 = l.getD 0 0 &&& topMask t := by
  cases l <;> simp [clearTop]

theorem clearTop_getD_of_pos (t : Nat) (l : List Byte) (j : Nat) (hj : 0 < j) :
    (clearTop t l).getD j 0 = l.getD j 0 := by
  obtain ⟨j, rfl⟩ := Nat.exists_eq_add_one.2 hj
  cases l <;> rfl

/-- `0xFF >> t` is `2^(8 − t) − 1` (rule R14). -/
theorem topMask_eq (t : Nat) (ht : t ≤ 7) : topMask t = BitVec.ofNat 8 (2 ^ (8 - t) - 1) := by
  have h : ∀ t : Fin 8, topMask t = BitVec.ofNat 8 (2 ^ (8 - t.val) - 1) := by decide
  exact h ⟨t, by omega⟩

theorem and_topMask_lt (b : Byte) (t : Nat) (ht : t ≤ 7) : (b &&& topMask t).toNat < 2 ^ (8 - t) := by
  have hpow : 2 ^ (8 - t) ≤ 2 ^ 8 := Nat.pow_le_pow_right two_pos (by omega)
  have hpos : 0 < 2 ^ (8 - t) := Nat.two_pow_pos _
  have hmask : (topMask t).toNat = 2 ^ (8 - t) - 1 := by
    rw [topMask_eq t ht, BitVec.toNat_ofNat]
    exact Nat.mod_eq_of_lt (by omega)
  rw [BitVec.toNat_and, hmask]
  exact Nat.and_lt_two_pow _ (by omega)

/-- The masked DB, its unused bits cleared (rules R126 to R128). -/
def maskedDb (c : Collab) (hlen dbl top : Nat) (salt h : List Byte) : List Byte :=
  clearTop top (xorMask c hlen (dataBlock dbl salt) h)

theorem encodeBlock_eq (c : Collab) (hlen ol top : Nat) (digest salt : List Byte) :
    encodeBlock c hlen ol top digest salt =
      maskedDb c hlen (ol - hlen - 1) top salt (hashBytes c hlen (hashInput digest salt)) ++
        (hashBytes c hlen (hashInput digest salt) ++ [0xBC]) := by
  rw [← List.append_assoc]
  rfl

theorem dataBlock_length_of_room (dbl : Nat) (salt : List Byte) (h : salt.length + 1 ≤ dbl) :
    (dataBlock dbl salt).length = dbl := by
  rw [dataBlock_length]
  omega

theorem maskedDb_length (c : Collab) (hlen dbl top : Nat) (salt h : List Byte) (hpos : 1 ≤ hlen)
    (hroom : salt.length + 1 ≤ dbl) : (maskedDb c hlen dbl top salt h).length = dbl := by
  rw [maskedDb, clearTop_length, xorMask_length _ _ _ _ hpos, dataBlock_length_of_room dbl salt hroom]

section Layout
variable (c : Collab) (s : State) (hv : s.params.Valid) (h : s.EncodeReady)

/-- `H` of ENCODE's operands (rule R125). -/
def encodedHash : List Byte := hashBytes c s.params.hlen (hashInput s.digestOperand s.saltOperand)

theorem encodedHash_length : (encodedHash c s).length = s.params.hlen :=
  hashBytes_length ..

theorem encodedMessage_eq : s.encodedMessage c =
    maskedDb c s.params.hlen s.dbLen s.topBits s.saltOperand (encodedHash c s) ++ (encodedHash c s ++ [0xBC]) :=
  encodeBlock_eq ..

include h

theorem dbLen_room : s.saltOperand.length + 1 ≤ s.dbLen ∧ s.dbLen + s.params.hlen + 1 = s.blockLen := by
  have hroom := h.room
  rw [State.saltOperand_length, State.dbLen]
  omega

include hv

theorem encodedMessage_db_length :
    (maskedDb c s.params.hlen s.dbLen s.topBits s.saltOperand (encodedHash c s)).length = s.dbLen :=
  maskedDb_length _ _ _ _ _ _ hv.1 (dbLen_room s h).1

theorem encodedMessage_getD_db (j : Nat) (hj : j < s.dbLen) : (s.encodedMessage c).getD j 0 =
    (maskedDb c s.params.hlen s.dbLen s.topBits s.saltOperand (encodedHash c s)).getD j 0 := by
  rw [encodedMessage_eq]
  exact List.getD_append _ _ _ _ (hj.trans_eq (encodedMessage_db_length c s hv h).symm)

theorem encodedMessage_getD_hash (j : Nat) (hj : j < s.params.hlen) :
    (s.encodedMessage c).getD (s.dbLen + j) 0 = (encodedHash c s).getD j 0 := by
  have hdb := encodedMessage_db_length c s hv h
  rw [encodedMessage_eq, List.getD_append_right _ _ _ _ (by omega), hdb, Nat.add_sub_cancel_left]
  exact List.getD_append _ _ _ _ (hj.trans_eq (encodedHash_length c s).symm)

theorem encodedMessage_getD_trailer : (s.encodedMessage c).getD (s.blockLen - 1) 0 = 0xBC := by
  have hdb := encodedMessage_db_length c s hv h
  have hhash := encodedHash_length c s
  have hsplit := (dbLen_room s h).2
  rw [encodedMessage_eq, List.getD_append_right _ _ _ _ (by omega), List.getD_append_right _ _ _ _ (by omega),
    show s.blockLen - 1 - _ - _ = 0 by omega]
  rfl

/-- A byte of the masked DB before its unused bits are cleared (rule R127). -/
theorem xorMask_dataBlock_getD (j : Nat) (hj : j < s.dbLen) :
    (xorMask c s.params.hlen (dataBlock s.dbLen s.saltOperand) (encodedHash c s)).getD j 0 =
      (dataBlock s.dbLen s.saltOperand).getD j 0 ^^^ (mgf c s.params.hlen (encodedHash c s) s.dbLen).getD j 0 := by
  have hlen := dataBlock_length_of_room s.dbLen s.saltOperand (dbLen_room s h).1
  rw [xorMask_getD _ _ _ _ hv.1 j (by omega), hlen]

theorem encodedMessage_getD_zero : (s.encodedMessage c).getD 0 0 =
    ((dataBlock s.dbLen s.saltOperand).getD 0 0 ^^^ (mgf c s.params.hlen (encodedHash c s) s.dbLen).getD 0 0) &&&
      topMask s.topBits := by
  have hpos : 0 < s.dbLen := Nat.lt_of_lt_of_le (Nat.succ_pos _) (dbLen_room s h).1
  rw [encodedMessage_getD_db c s hv h 0 hpos, maskedDb, clearTop_getD_zero, xorMask_dataBlock_getD c s hv h 0 hpos]

theorem encodedMessage_getD_of_pos (j : Nat) (hpos : 0 < j) (hj : j < s.dbLen) : (s.encodedMessage c).getD j 0 =
    (dataBlock s.dbLen s.saltOperand).getD j 0 ^^^ (mgf c s.params.hlen (encodedHash c s) s.dbLen).getD j 0 := by
  rw [encodedMessage_getD_db c s hv h j hj, maskedDb, clearTop_getD_of_pos _ _ _ hpos,
    xorMask_dataBlock_getD c s hv h j hj]

/-! ### What a ready ENCODE leaves (rule R131) -/

theorem encodeCommand_ready_mem :
    (encodeCommand c s).mem = s.mem.writeBytes Buffer.em.base (s.encodedMessage c) := by
  simp [encodeCommand_ready c s hv h]

theorem encodeCommand_ready_frame : encodeCommand c s = { s with
    mem := (encodeCommand c s).mem, emLen := (encodeCommand c s).emLen
    status := { s.status with busy := false, done := true } } := by
  simp [encodeCommand_ready c s hv h, State.complete, State.setEmLen, State.storeBuf, Status.complete]

theorem encodeCommand_ready_emLen : (encodeCommand c s).emLen.toNat = s.blockLen := by
  rw [encodeCommand_ready c s hv h]
  obtain ⟨-, -, -, -, hemax, -⟩ := hv
  obtain ⟨-, -, hem, -⟩ := h
  exact toNat_ofNat_of_le (hem.trans hemax) (by decide)

theorem encodeCommand_ready_emOperand : (encodeCommand c s).emOperand = s.encodedMessage c := by
  rw [State.emOperand, encodeCommand_ready_emLen c s hv h, ← s.encodedMessage_length c hv h, State.buf,
    encodeCommand_ready_mem c s hv h, Memory.readBytes_writeBytes]

theorem encodeCommand_ready_bufByte (j : Nat) (hj : j < s.blockLen) :
    (encodeCommand c s).bufByte .em j = (s.encodedMessage c).getD j 0 := by
  rw [← s.encodedMessage_length c hv h] at hj
  rw [State.bufByte, encodeCommand_ready_mem c s hv h, Memory.read_writeBytes_inside _ _ _ _ hj,
    List.getD_eq_getElem _ _ hj]

theorem encodeCommand_ready_read_outside (a : Nat) (ha : a < 0x2000 ∨ 0x2000 + s.blockLen ≤ a) :
    (encodeCommand c s).mem.read a = s.mem.read a := by
  rw [← s.encodedMessage_length c hv h] at ha
  rw [encodeCommand_ready_mem c s hv h, Memory.read_writeBytes_outside _ Buffer.em.base _ _ ha]

/-- The operands below the EM buffer read as before ENCODE (rules R11, R40). -/
theorem encodeCommand_ready_buf_below (b : Buffer) (n : Nat) (hn : b.base + n ≤ 0x2000) :
    (encodeCommand c s).buf b n = s.buf b n := by
  rw [State.buf, encodeCommand_ready_mem c s hv h]
  exact Memory.readBytes_writeBytes_apart _ _ _ _ _ (.inl hn)

theorem encodeCommand_ready_digestOperand : (encodeCommand c s).digestOperand = s.digestOperand := by
  have hhlen := hlen_le hv
  have hdigest : s.digestLen.toNat = s.params.hlen := h.1
  have hlen : (encodeCommand c s).digestLen = s.digestLen := by rw [encodeCommand_ready_frame c s hv h]
  rw [State.digestOperand, hlen]
  exact encodeCommand_ready_buf_below c s hv h .digest _ (by simp only [Buffer.base]; omega)

theorem encodeCommand_ready_saltOperand : (encodeCommand c s).saltOperand = s.saltOperand := by
  have hscap := scap_le hv
  have ⟨_, _, _, hsalt⟩ := h
  have hlen : (encodeCommand c s).saltLen = s.saltLen := by rw [encodeCommand_ready_frame c s hv h]
  rw [State.saltOperand, hlen]
  exact encodeCommand_ready_buf_below c s hv h .salt _ (by simp only [Buffer.base]; omega)

end Layout

/-- Settles O38: the bytes of `encodeCommand_ready_bufByte` by region: `encodedMessage_getD_of_pos`, `_zero`, `_hash`
and `_trailer`. -/
theorem encodeResult : Obligations.EncodeResult := by
  intro s hv h
  obtain ⟨hroom, hsplit⟩ := dbLen_room s h
  have hbyte := encodeCommand_ready_bufByte collab s hv h
  have htop := s.topBits_le
  have hfirst : (encodeCommand collab s).bufByte .em 0 = _ := (hbyte 0 (by omega)).trans
    (encodedMessage_getD_zero collab s hv h)
  rw [State.saltOperand_length] at hroom
  refine ⟨encodeCommand collab s, s.blockLen, s.dbLen, s.topBits, encodedHash collab s, rfl, rfl, rfl, rfl, rfl,
    encodedHash_length collab s, by omega, htop, encodeCommand_ready_emLen collab s hv h, ?_, ?_, ?_, ?_, ?_,
    encodeCommand_ready_read_outside collab s hv h, encodeCommand_ready_frame collab s hv h⟩
  · intro j hpos hj
    rw [hbyte j (by omega), encodedMessage_getD_of_pos collab s hv h j hpos hj, ← State.saltOperand_length]
    rfl
  · rw [hfirst, topMask_eq _ htop, ← State.saltOperand_length]
    rfl
  · rw [hfirst]
    exact and_topMask_lt _ _ htop
  · intro j hj
    rw [hbyte _ (by omega), encodedMessage_getD_hash collab s hv h j hj]
  · rw [hbyte _ (by omega), encodedMessage_getD_trailer collab s hv h]

end Sys2Proof.Proofs
end

/-! ## Proofs: what VERIFY decides (spec `42_verify.md`) -/
section
namespace Sys2Proof.Proofs
open Sys2Proof.Machine

/-! ### The verdict on a recovered salt (rules R151 to R155) -/

/-- The last conjuncts of `State.Accepts`: the unmasked DB is the layout of `salt`, the stored hash is its hash, and its
length meets the policy. -/
def RecoversSalt (c : Collab) (s : State) (salt : List Byte) : Prop :=
  s.unmaskedDb c = dataBlock s.dbLen salt ∧
  s.blockHash = hashBytes c s.params.hlen (hashInput s.digestOperand salt) ∧
  (s.reqSalt = true → salt.length = s.cfgSaltLen.toNat)

theorem accepts_iff (c : Collab) (s : State) (sl : Nat) : s.Accepts c sl ↔
    s.candidateAdmitted = true ∧ (s.paddedBlock.headD 0).toNat < 2 ^ (8 - s.topBits) ∧
    ∃ salt : List Byte, salt.length = sl ∧ RecoversSalt c s salt := by
  rw [State.candidateAdmitted_iff]
  constructor
  · rintro ⟨hbits, hdigest, hlen, hfit, htrailer, htop, salt, rfl, hrecovers⟩
    exact ⟨⟨hbits, hdigest, hlen, hfit, htrailer⟩, htop, salt, rfl, hrecovers⟩
  · rintro ⟨⟨hbits, hdigest, hlen, hfit, htrailer⟩, htop, salt, rfl, hrecovers⟩
    exact ⟨hbits, hdigest, hlen, hfit, htrailer, htop, salt, rfl, hrecovers⟩

/-! ### Padding and unmasking change `W` only (rules R147 to R150) -/

@[simp] theorem unmasked_rejectVerify (c : Collab) (s : State) :
    (s.padCandidate.unmaskWork c).rejectVerify = s.rejectVerify := by
  simp [State.rejectVerify, State.clearWork, State.complete]

@[simp] theorem unmasked_acceptVerify (c : Collab) (s : State) (sl : Nat) :
    (s.padCandidate.unmaskWork c).acceptVerify sl = s.acceptVerify sl := by
  simp [State.acceptVerify]

@[simp] theorem unmasked_digestOperand (c : Collab) (s : State) :
    (s.padCandidate.unmaskWork c).digestOperand = s.digestOperand := by
  simp [State.digestOperand, State.buf]

@[simp] theorem unmasked_reqSalt (c : Collab) (s : State) : (s.padCandidate.unmaskWork c).reqSalt = s.reqSalt := by
  simp [State.reqSalt]

section Judgement
variable (c : Collab) (s : State) (hv : s.params.Valid) (hadm : s.candidateAdmitted = true)
include hadm

theorem blockHash_length : s.blockHash.length = s.params.hlen := by
  obtain ⟨hbits, -, ⟨-, hlen⟩, -, -⟩ := s.candidateAdmitted_iff.1 hadm
  have hsplit := s.dbLen_split hbits
  simp [State.blockHash, s.paddedBlock_length hlen]
  omega

/-- Past check 5 the verdict is that of the unmasked block. -/
theorem verifyCommand_of_topBits_clear (htop : (s.paddedBlock.headD 0).toNat < 2 ^ (8 - s.topBits)) :
    verifyCommand c s = (s.padCandidate.unmaskWork c).judgeLayout c := by
  obtain ⟨-, -, ⟨hlow, hlen⟩, -, -⟩ := s.candidateAdmitted_iff.1 hadm
  have hfirst := s.padCandidate_read_zero hlen (by omega)
  have hsig : ¬ 8 - s.topBits < sigbits (s.paddedBlock.headD 0) := by
    rwa [not_lt, sigbits_le_iff_lt_two_pow]
  rw [verifyCommand, if_pos hadm]
  simp only [State.padCandidate_topBits, hfirst]
  rw [if_neg hsig]

include hv

theorem judgeLayout_of_no_marker (hscan : scanMarker (s.unmaskedDb c) = none) :
    (s.padCandidate.unmaskWork c).judgeLayout c = s.rejectVerify := by
  obtain ⟨hbits, -, ⟨-, hlen⟩, -, -⟩ := s.candidateAdmitted_iff.1 hadm
  obtain ⟨hdb, -, -⟩ := s.unmaskWork_regions c hv.1 hbits hlen
  rw [State.judgeLayout, hdb, hscan]
  exact unmasked_rejectVerify c s

/-- With the marker at `i`, the verdict is on the bytes after it. -/
theorem judgeLayout_of_marker (i : Nat) (hscan : scanMarker (s.unmaskedDb c) = some i) :
    (s.padCandidate.unmaskWork c).judgeLayout c = s.rejectVerify ∧
      ¬ RecoversSalt c s ((s.unmaskedDb c).drop (i + 1)) ∨
    (s.padCandidate.unmaskWork c).judgeLayout c = s.acceptVerify ((s.unmaskedDb c).drop (i + 1)).length ∧
      RecoversSalt c s ((s.unmaskedDb c).drop (i + 1)) := by
  obtain ⟨hbits, -, ⟨-, hlen⟩, -, -⟩ := s.candidateAdmitted_iff.1 hadm
  obtain ⟨hdb, hhash, hdbLen⟩ := s.unmaskWork_regions c hv.1 hbits hlen
  have hsalt := s.unmaskWork_salt c hv.1 hbits hlen i
  have hlayout := (dataBlock_of_scan _ i hscan).1
  rw [hdbLen] at hlayout
  have hequal := ctEqual_eq_true_iff s.blockHash
    (hashBytes c s.params.hlen (hashInput s.digestOperand ((s.unmaskedDb c).drop (i + 1))))
    (by rw [blockHash_length s hadm, hashBytes_length])
  have hjudge : (s.padCandidate.unmaskWork c).judgeLayout c = (s.padCandidate.unmaskWork c).judgeSalt c i := by
    rw [State.judgeLayout, hdb, hscan]
  rw [hjudge, State.judgeSalt]
  simp only [State.unmaskWork_dbLen, State.padCandidate_dbLen, hsalt, hhash, unmasked_rejectVerify,
    unmasked_acceptVerify, unmasked_digestOperand, unmasked_reqSalt, State.unmaskWork_params,
    State.padCandidate_params, State.unmaskWork_cfgSaltLen, State.padCandidate_cfgSaltLen]
  split_ifs with hct hpolicy
  · exact .inl ⟨rfl, fun ⟨_, _, h⟩ => hpolicy.2 (h hpolicy.1)⟩
  · exact .inr ⟨rfl, hlayout, hequal.1 hct, fun hreq => not_not.1 fun hne => hpolicy ⟨hreq, hne⟩⟩
  · exact .inl ⟨rfl, fun ⟨_, h, _⟩ => hct (hequal.2 h)⟩

end Judgement

/-! ### The nine conditions (rules R156, R157, R162) -/

theorem verifyCommand_of_accepts (c : Collab) (s : State) (hv : s.params.Valid) (sl : Nat) (h : s.Accepts c sl) :
    verifyCommand c s = s.acceptVerify sl := by
  obtain ⟨hadm, htop, salt, rfl, hrecovers⟩ := (accepts_iff c s sl).1 h
  obtain ⟨hscan, hdrop⟩ := scan_dataBlock s.dbLen salt
  rw [← hrecovers.1] at hscan hdrop
  rw [verifyCommand_of_topBits_clear c s hadm htop]
  rcases judgeLayout_of_marker c s hv hadm _ hscan with ⟨-, hnot⟩ | ⟨haccept, -⟩
  · exact absurd (hdrop.symm ▸ hrecovers) hnot
  · rw [haccept, hdrop]

theorem verifyCommand_of_not_accepts (c : Collab) (s : State) (hv : s.params.Valid) (h : ∀ sl, ¬ s.Accepts c sl) :
    verifyCommand c s = s.rejectVerify := by
  simp only [accepts_iff] at h
  by_cases hadm : s.candidateAdmitted = true
  · by_cases htop : (s.paddedBlock.headD 0).toNat < 2 ^ (8 - s.topBits)
    · rw [verifyCommand_of_topBits_clear c s hadm htop]
      cases hscan : scanMarker (s.unmaskedDb c) with
      | none => exact judgeLayout_of_no_marker c s hv hadm hscan
      | some i =>
        rcases judgeLayout_of_marker c s hv hadm i hscan with ⟨hreject, -⟩ | ⟨-, hrecovers⟩
        · exact hreject
        · exact absurd ⟨hadm, htop, _, rfl, hrecovers⟩ (h _)
    · exact verifyCommand_of_topBits_set c s hadm (not_lt.1 htop)
  · exact verifyCommand_of_not_admitted c s hadm

/-- Settles O39: `verifyCommand_of_accepts` and `verifyCommand_of_not_accepts`. -/
theorem verifyDecidesNineConditions : Obligations.VerifyDecidesNineConditions :=
  fun s hv => ⟨fun sl h => congrArg Host.Outcome.next (verifyCommand_of_accepts collab s hv sl h),
    fun h => congrArg Host.Outcome.next (verifyCommand_of_not_accepts collab s hv h)⟩

/-! ### The salt-length policy (rule R155), with no premise on the parameters -/

/-- VERIFY rejects, or accepts with a salt length that the policy admits. -/
def PolicyVerdict (s t : State) : Prop :=
  t = s.rejectVerify ∨ ∃ sl, t = s.acceptVerify sl ∧ (s.reqSalt = true → sl = s.cfgSaltLen.toNat)

theorem judgeSalt_policy (c : Collab) (i : Nat) (s : State) : PolicyVerdict s (s.judgeSalt c i) := by
  unfold State.judgeSalt
  simp only
  split_ifs with hct hpolicy
  · exact .inl rfl
  · exact .inr ⟨_, rfl, fun hreq => not_not.1 fun hne => hpolicy ⟨hreq, hne⟩⟩
  · exact .inl rfl

theorem judgeLayout_policy (c : Collab) (s : State) : PolicyVerdict s (s.judgeLayout c) := by
  unfold State.judgeLayout
  split
  · exact .inl rfl
  · exact judgeSalt_policy c _ s

@[simp] theorem unmasked_policyVerdict (c : Collab) (s t : State) :
    PolicyVerdict (s.padCandidate.unmaskWork c) t ↔ PolicyVerdict s t := by
  simp [PolicyVerdict]

theorem verifyCommand_policy (c : Collab) (s : State) : PolicyVerdict s (verifyCommand c s) := by
  by_cases hadm : s.candidateAdmitted = true
  · by_cases htop : (s.paddedBlock.headD 0).toNat < 2 ^ (8 - s.topBits)
    · rw [verifyCommand_of_topBits_clear c s hadm htop]
      exact (unmasked_policyVerdict c s _).1 (judgeLayout_policy c _)
    · exact .inl (verifyCommand_of_topBits_set c s hadm (not_lt.1 htop))
  · exact .inl (verifyCommand_of_not_admitted c s hadm)

/-- Settles O43: of the verdicts of `verifyCommand_policy` only the second sets `VOK`. -/
theorem verifySaltPolicy : Obligations.VerifySaltPolicy := by
  intro s ⟨_, _, _, hvok, _, _⟩ hreq
  refine ⟨verifyCommand collab s, rfl, fun ht => ?_⟩
  rcases verifyCommand_policy collab s with hreject | ⟨sl, haccept, hpolicy⟩
  · simp [hreject, hvok] at ht
  · rw [haccept, hpolicy hreq, State.acceptVerify_saltLenOut, BitVec.ofNat_toNat, BitVec.setWidth_eq]

/-! ### VERIFY after ENCODE (rules R134 (e), R160) -/

theorem ext_getD (l l' : List Byte) (hlen : l.length = l'.length) (h : ∀ j, j < l.length → l.getD j 0 = l'.getD j 0) :
    l = l' := by
  apply List.ext_getElem hlen
  intro j hj hj'
  rw [← List.getD_eq_getElem _ 0 hj, ← List.getD_eq_getElem _ 0 hj', h j hj]

/-- The first DB byte is padding or the marker, so clearing unused bits does not change it (rules R126, R128). -/
theorem dataBlock_first_and_topMask (dbl : Nat) (salt : List Byte) (t : Nat) (ht : t ≤ 7) :
    (dataBlock dbl salt).getD 0 0 &&& topMask t = (dataBlock dbl salt).getD 0 0 := by
  have hmask : ∀ t : Fin 8, (1 : Byte) &&& topMask t.val = 1 := by decide
  rw [dataBlock]
  cases dbl - salt.length - 1 with
  | zero => exact hmask ⟨t, by omega⟩
  | succ k => exact BitVec.zero_and

theorem unmask_first_byte (a m k : Byte) (ha : a &&& k = a) : (((a ^^^ m) &&& k) ^^^ m) &&& k = a := by
  have hbit (i : Nat) (hi : i < 8) : ((((a ^^^ m) &&& k) ^^^ m) &&& k)[i] = (a &&& k)[i] := by
    simp only [BitVec.getElem_and, BitVec.getElem_xor]
    cases a[i] <;> cases m[i] <;> cases k[i] <;> rfl
  exact (BitVec.eq_of_getElem_eq hbit).trans ha

/-- Unmasking undoes masking, whatever bits of the first byte were cleared in between (rules R149, R150). -/
theorem unmask_maskedDb (c : Collab) (hlen dbl top : Nat) (salt h : List Byte) (hpos : 1 ≤ hlen)
    (hroom : salt.length + 1 ≤ dbl) (htop : top ≤ 7) :
    clearTop top (xorMask c hlen (maskedDb c hlen dbl top salt h) h) = dataBlock dbl salt := by
  have hdb := dataBlock_length_of_room dbl salt hroom
  have hmasked := maskedDb_length c hlen dbl top salt h hpos hroom
  have hbyte (j : Nat) (hj : j < dbl) : (xorMask c hlen (maskedDb c hlen dbl top salt h) h).getD j 0 =
      (maskedDb c hlen dbl top salt h).getD j 0 ^^^ (mgf c hlen h dbl).getD j 0 := by
    rw [xorMask_getD c hlen _ h hpos j (by omega), hmasked]
  have hunmasked (j : Nat) (hj : j < dbl) : (xorMask c hlen (dataBlock dbl salt) h).getD j 0 =
      (dataBlock dbl salt).getD j 0 ^^^ (mgf c hlen h dbl).getD j 0 := by
    rw [xorMask_getD c hlen _ h hpos j (by omega), hdb]
  apply ext_getD
  · rw [clearTop_length, xorMask_length c hlen _ h hpos, hmasked, hdb]
  · intro j hj
    rw [clearTop_length, xorMask_length c hlen _ h hpos, hmasked] at hj
    rcases Nat.eq_zero_or_pos j with rfl | hjpos
    · rw [clearTop_getD_zero, hbyte 0 hj, maskedDb, clearTop_getD_zero, hunmasked 0 hj]
      exact unmask_first_byte _ _ _ (dataBlock_first_and_topMask dbl salt top htop)
    · rw [clearTop_getD_of_pos _ _ _ hjpos, hbyte j hj, maskedDb, clearTop_getD_of_pos _ _ _ hjpos, hunmasked j hj,
        BitVec.xor_assoc, BitVec.xor_self, BitVec.xor_zero]

theorem blockLen_congr {s t : State} (h : t.bits = s.bits) : t.blockLen = s.blockLen := by
  rw [State.blockLen, h, State.blockLen]

section RoundTrip
variable (c : Collab) (s : State) (w : Word) (hv : s.params.Valid) (h : s.EncodeReady)
include hv h

/-- A command started after ENCODE finds the registers of ENCODE's start, but for `EM_LEN`. -/
theorem reopened_registers :
    ((encodeCommand c s).startCommand w).params = s.params ∧ ((encodeCommand c s).startCommand w).bits = s.bits ∧
    ((encodeCommand c s).startCommand w).digestLen = s.digestLen ∧
    ((encodeCommand c s).startCommand w).cfg = s.cfg ∧
    ((encodeCommand c s).startCommand w).cfgSaltLen = s.cfgSaltLen ∧
    ((encodeCommand c s).startCommand w).digestOperand = s.digestOperand := by
  have hdigest := encodeCommand_ready_digestOperand c s hv h
  rw [encodeCommand_ready_frame c s hv h] at hdigest ⊢
  exact ⟨rfl, rfl, rfl, rfl, rfl, hdigest⟩

/-- The candidate of that command is the whole block, so nothing is padded. -/
theorem reopened_paddedBlock : ((encodeCommand c s).startCommand w).paddedBlock = s.encodedMessage c := by
  have hbits := (reopened_registers c s w hv h).2.1
  have hlen := encodeCommand_ready_emLen c s hv h
  have hpad : ((encodeCommand c s).startCommand w).blockLen - ((encodeCommand c s).startCommand w).emLen.toNat = 0 := by
    rw [State.blockLen, hbits, State.startCommand_emLen, hlen]
    exact Nat.sub_self _
  rw [State.paddedBlock, hpad]
  exact encodeCommand_ready_emOperand c s hv h

theorem encodedMessage_take_db : (s.encodedMessage c).take s.dbLen =
    maskedDb c s.params.hlen s.dbLen s.topBits s.saltOperand (encodedHash c s) := by
  rw [encodedMessage_eq]
  exact List.take_left' (encodedMessage_db_length c s hv h)

theorem encodedMessage_hash : ((s.encodedMessage c).drop s.dbLen).take s.params.hlen = encodedHash c s := by
  rw [encodedMessage_eq, List.drop_left' (encodedMessage_db_length c s hv h)]
  exact List.take_left' (encodedHash_length c s)

/-- What ENCODE produced meets VERIFY's nine conditions, if the policy admits its salt length. -/
theorem accepts_after_encode (hpolicy : s.reqSalt = true → s.saltLen.toNat = s.cfgSaltLen.toNat) :
    ((encodeCommand c s).startCommand w).Accepts c s.saltLen.toNat := by
  obtain ⟨hparams, hbits, hdigestLen, hcfg, hcfgSalt, hdigest⟩ := reopened_registers c s w hv h
  have hblock : ((encodeCommand c s).startCommand w).blockLen = s.blockLen := blockLen_congr hbits
  have htop : ((encodeCommand c s).startCommand w).topBits = s.topBits := by
    rw [State.topBits, hblock, hbits, State.topBits]
  have hdb : ((encodeCommand c s).startCommand w).dbLen = s.dbLen := by
    rw [State.dbLen, hblock, hparams, State.dbLen]
  have hem : ((encodeCommand c s).startCommand w).emLen.toNat = s.blockLen := encodeCommand_ready_emLen c s hv h
  have hpadded := reopened_paddedBlock c s w hv h
  have hhash : ((encodeCommand c s).startCommand w).blockHash = encodedHash c s := by
    rw [State.blockHash, hpadded, hdb, hparams, encodedMessage_hash c s hv h]
  have hroom := dbLen_room s h
  have hready := h.2.1
  refine ⟨?_, ?_, ?_, ?_, ?_, ?_, s.saltOperand, s.saltOperand_length, ?_, ?_, ?_⟩
  · rw [hparams, hbits]
    omega
  · rw [hparams, hdigestLen, h.1]
  · rw [hem, hblock]
    omega
  · rw [hparams, hblock]
    exact h.2.2.1
  · rw [hem]
    exact (encodeCommand_ready_bufByte c s hv h _ (by omega)).trans (encodedMessage_getD_trailer c s hv h)
  · rw [hpadded, htop, List.headD_eq_getD, encodedMessage_getD_zero c s hv h]
    exact and_topMask_lt _ _ s.topBits_le
  · rw [hpadded, hparams, htop, hdb, hhash, encodedMessage_take_db c s hv h]
    exact unmask_maskedDb c _ _ _ _ _ hv.1 hroom.1 s.topBits_le
  · rw [hhash, hparams, hdigest]
    rfl
  · rw [State.reqSalt, hcfg, hcfgSalt]
    exact hpolicy

end RoundTrip

/-- Settles O44: the block meets VERIFY's conditions by `accepts_after_encode`. -/
theorem roundTrip : Obligations.RoundTrip := by
  intro s w hv h hpolicy
  have haccepts := accepts_after_encode collab s w hv h fun hreq => congrArg BitVec.toNat (hpolicy hreq).symm
  have hv' : ((encodeCommand collab s).startCommand w).params.Valid := (reopened_registers collab s w hv h).1 ▸ hv
  refine ⟨_, _, rfl, congrArg Host.Outcome.next (verifyCommand_of_accepts collab _ hv' _ haccepts), rfl, rfl, ?_, rfl⟩
  rw [State.acceptVerify_saltLenOut, BitVec.ofNat_toNat, BitVec.setWidth_eq]

/-! ### Leading zero bytes (rules R147, R161 (f)) -/

/-- Two started VERIFYs with the same conditions end alike. -/
theorem verifyCommand_congr (c : Collab) (s v : State) (hs : s.params.Valid) (hv : v.params.Valid)
    (hsp : s.InProgress) (hvp : v.InProgress) (h : ∀ sl, v.Accepts c sl ↔ s.Accepts c sl) :
    (verifyCommand c v).status.vok = (verifyCommand c s).status.vok ∧
    (verifyCommand c v).saltLenOut = (verifyCommand c s).saltLenOut := by
  obtain ⟨-, -, -, hsvok, -, hssalt⟩ := hsp
  obtain ⟨-, -, -, hvvok, -, hvsalt⟩ := hvp
  by_cases hacc : ∃ sl, s.Accepts c sl
  · obtain ⟨sl, hsl⟩ := hacc
    rw [verifyCommand_of_accepts c s hs sl hsl, verifyCommand_of_accepts c v hv sl ((h sl).2 hsl)]
    exact ⟨rfl, rfl⟩
  · have hno := not_exists.1 hacc
    rw [verifyCommand_of_not_accepts c s hs hno,
      verifyCommand_of_not_accepts c v hv fun sl hsl => hno sl ((h sl).1 hsl)]
    exact ⟨hvvok.trans hsvok.symm, hvsalt.trans hssalt.symm⟩

theorem emOperand_of_leading_zero (s v : State) (hlen : s.emLen.toNat = v.emLen.toNat + 1)
    (hzero : s.bufByte .em 0 = 0) (hrest : ∀ j, j < v.emLen.toNat → v.bufByte .em j = s.bufByte .em (j + 1)) :
    s.emOperand = 0 :: v.emOperand := by
  rw [State.emOperand, hlen]
  refine congrArg₂ List.cons hzero (Memory.readBytes_congr _ _ _ _ _ fun j hj => ?_)
  rw [Nat.add_assoc, Nat.add_comm 1]
  exact (hrest j hj).symm

/-- Padding supplies the zero byte that was dropped. -/
theorem paddedBlock_of_leading_zero (s v : State) (hblock : v.blockLen = s.blockLen)
    (hlen : s.emLen.toNat = v.emLen.toNat + 1) (hfit : s.emLen.toNat ≤ s.blockLen)
    (hem : s.emOperand = 0 :: v.emOperand) : v.paddedBlock = s.paddedBlock := by
  obtain ⟨k, hk⟩ := Nat.exists_eq_add_of_le hfit
  have hs : s.blockLen - s.emLen.toNat = k := by omega
  have hv : v.blockLen - v.emLen.toNat = k + 1 := by omega
  rw [State.paddedBlock, State.paddedBlock, hs, hv, hem, List.replicate_succ', List.append_assoc]
  rfl

/-- Settles O45: the padded blocks are equal, and with them all that `State.Accepts` speaks of. -/
theorem leadingZeroMayBeDropped : Obligations.LeadingZeroMayBeDropped := by
  intro s v hvalid hsp hvp hlen hlow hfit hzero hrest hparams hbits hdigestLen hdigest hcfg hcfgSalt
  have hblock : v.blockLen = s.blockLen := blockLen_congr hbits
  have hpadded := paddedBlock_of_leading_zero s v hblock hlen hfit
    (emOperand_of_leading_zero s v hlen hzero hrest)
  have htrailer : v.bufByte .em (v.emLen.toNat - 1) = s.bufByte .em (s.emLen.toNat - 1) := by
    rw [hrest _ (by omega), hlen]
    congr 1
    omega
  have hfit' : s.emLen.toNat ≤ s.blockLen := hfit
  have hlengths : (1 < v.emLen.toNat ∧ v.emLen.toNat ≤ s.blockLen) ↔
      (1 < s.emLen.toNat ∧ s.emLen.toNat ≤ s.blockLen) := by omega
  refine ⟨_, _, rfl, rfl, verifyCommand_congr collab s v hvalid (hparams ▸ hvalid) hsp hvp fun sl => ?_⟩
  simp only [State.Accepts, State.blockHash, State.topBits, State.dbLen, State.reqSalt, hblock, hpadded, htrailer,
    hlengths, hparams, hbits, hdigestLen, hdigest, hcfg, hcfgSalt]

end Sys2Proof.Proofs
end

/-! ## Proofs: results of the wrapper's commands (spec `43_wrapper.md`) -/
section
namespace Sys2Proof.Proofs
open Sys2Proof.Machine

/-! ### FINALIZE of the HASHING variant (rules R174, R175) -/

theorem finalizeCommand_of_hashing (c : Collab) (s : State) (hhash : s.params.variant = .hashing) :
    finalizeCommand c s = ((s.setAcc [] false).deliverDigest (hashBytes c s.params.hlen s.acc)).complete := by
  simpa [hhash] using finalizeCommand_cases c s

theorem exec_finalize_of_hashing (s : State) (hhash : s.params.variant = .hashing) : exec .finalize s =
    .next ((s.setAcc [] false).deliverDigest (hashBytes collab s.params.hlen s.acc)).complete := by
  rw [exec_finalize_of_wrapped s (by simp [hhash]), finalizeCommand_of_hashing collab s hhash]

/-- Settles O47: `exec_finalize_of_hashing`, and what a delivered digest leaves. -/
theorem finalizeHashing : Obligations.FinalizeHashing := by
  intro s hv hhash
  have hlen := hashBytes_length collab s.params.hlen s.acc
  refine ⟨_, exec_finalize_of_hashing s hhash, ?_, ?_, ?_, rfl⟩
  · exact deliverDigest_digestLen_toNat (s.setAcc [] false) (hashBytes collab s.params.hlen s.acc) hv
  · exact fun j hj => deliverDigest_bufByte _ _ j (hj.trans_eq hlen.symm)
  · exact fun a ha => deliverDigest_read_outside _ _ a (by rwa [hlen])

/-- The digest that FINALIZE delivers, read back. -/
theorem deliverDigest_buf (s : State) (d : List Byte) : (s.deliverDigest d).buf .digest d.length = d :=
  Memory.readBytes_writeBytes _ _ _

theorem exec_update_of_fit (s : State) (hwrapped : s.params.variant ≠ .none) (hfit : s.msgLen.toNat ≤ s.params.mcap) :
    exec .update s = .next (s.setAcc (s.acc ++ s.msgOperand) true).complete := by
  rw [exec_update_of_wrapped s hwrapped, updateCommand_of_fit s hfit]

/-- Settles O49: each UPDATE appends to the `ACC` it finds, and FINALIZE delivers the hash of what `ACC` then holds. -/
theorem updatesConcatenate : Obligations.UpdatesConcatenate := by
  intro s _ hhash hfit
  have hwrapped : s.params.variant ≠ .none := by simp [hhash]
  refine ⟨_, exec_update_of_fit s hwrapped hfit, fun u huparams huacc hufit => ?_⟩
  refine ⟨_, exec_update_of_fit u (huparams ▸ hwrapped) (huparams ▸ hufit), fun f hfparams hfacc => ?_⟩
  refine ⟨_, exec_finalize_of_hashing f (hfparams ▸ hhash), rfl, ?_⟩
  have hacc : f.acc = s.acc ++ s.msgOperand ++ u.msgOperand := by
    rw [hfacc, State.complete_acc, State.setAcc_acc, huacc]
    rfl
  have hdigest := deliverDigest_buf (f.setAcc [] false) (hashBytes collab f.params.hlen f.acc)
  rw [hashBytes_length, hfparams, hacc] at hdigest
  rw [hfparams, hacc]
  exact hdigest

/-! ### The draw of ENCODE_RND (rule R180) -/

theorem exec_encodeRnd_of_wrapped (s : State) (h : s.params.variant ≠ .none) :
    exec .encodeRnd s = .next (encodeRndCommand collab s) :=
  congrArg Host.Outcome.next (whenWrapped_of_present s _ h)

theorem exec_encodeRnd_of_fit (s : State) (h : s.params.variant ≠ .none) (hfit : s.cfgSaltLen.toNat ≤ s.params.scap) :
    exec .encodeRnd s = .next (encodeCommand collab (s.drawSalt collab)) := by
  rw [exec_encodeRnd_of_wrapped s h, encodeRndCommand, if_neg hfit.not_gt]

theorem exec_encodeRnd_of_not_fit (s : State) (h : s.params.variant ≠ .none)
    (hover : s.params.scap < s.cfgSaltLen.toNat) : exec .encodeRnd s = .next (s.raise .capacity) := by
  rw [exec_encodeRnd_of_wrapped s h, encodeRndCommand, if_pos hover]

theorem drawSalt_saltOperand (s : State) :
    (s.drawSalt collab).saltOperand = (Config.rng s.rngDraws s.cfgSaltLen.toNat).toList := by
  have hdrawn := storeBuf_buf_same .salt (Config.rng s.rngDraws s.cfgSaltLen.toNat).toList s
  rwa [Vector.length_toList] at hdrawn

/-- The digest operand lies below the SALT buffer (rules R11, R40). -/
theorem drawSalt_digestOperand (s : State) (hv : s.params.Valid) (hfit : s.digestLen.toNat ≤ s.params.dcap) :
    (s.drawSalt collab).digestOperand = s.digestOperand := by
  obtain ⟨-, -, hdcap, -⟩ := hv
  exact storeBuf_buf_other .digest .salt (Config.rng s.rngDraws s.cfgSaltLen.toNat).toList s.digestLen.toNat s
    (.inl (by simp only [Buffer.base]; omega))

/-- ENCODE's preconditions on the drawn salt are those on the configured length. -/
theorem drawSalt_encodeReady_iff (s : State) (hfit : s.cfgSaltLen.toNat ≤ s.params.scap) :
    (s.drawSalt collab).EncodeReady ↔ s.digestLen.toNat = s.params.hlen ∧
      8 * s.params.hlen + 8 * s.cfgSaltLen.toNat + 9 ≤ s.bits.toNat ∧ s.blockLen ≤ s.params.emax := by
  constructor
  · rintro ⟨hdigest, hbits, hem, -⟩
    exact ⟨hdigest, hbits, hem⟩
  · rintro ⟨hdigest, hbits, hem⟩
    exact ⟨hdigest, hbits, hem, hfit⟩

/-! ### The obligations on ENCODE_RND -/

/-- Settles O50: ENCODE's result on the drawn state (`encodeCommand_ready_emOperand`), where `SALT` holds the draw. -/
theorem encodeRndResult : Obligations.EncodeRndResult := by
  intro s hv hwrapped hfit hdigest hbits hem
  have hready := (drawSalt_encodeReady_iff s hfit).2 ⟨hdigest, hbits, hem⟩
  have hv' : (s.drawSalt collab).params.Valid := hv
  have hemLen := encodeCommand_ready_emLen collab _ hv' hready
  refine ⟨_, _, exec_encodeRnd_of_fit s hwrapped hfit, rfl, ?_, ?_, ?_, hemLen, ?_, ?_, ?_⟩
  · rw [encodeCommand_ready_frame collab _ hv' hready, State.drawSalt_saltLen]
  · rw [encodeCommand_ready_saltOperand collab _ hv' hready, drawSalt_saltOperand]
  · rw [encodeCommand_ready_frame collab _ hv' hready, State.drawSalt_rngDraws]
  · rw [encodeCommand_ready_emOperand collab _ hv' hready, State.encodedMessage, drawSalt_saltOperand,
      drawSalt_digestOperand s hv (hdigest.trans_le hv.2.1)]
    rfl
  · intro a hsalt ha
    rw [hemLen] at ha
    rw [encodeCommand_ready_read_outside collab _ hv' hready a ha, drawSalt_read_outside collab s a hsalt]
  · rw [encodeCommand_ready collab _ hv' hready]
    simp [State.complete, State.setEmLen, State.storeBuf, State.drawSalt, State.setSaltLen, Status.complete]

/-- An ENCODE that is not ready ends with the first of its errors (rules R122 to R124). -/
theorem encodeCommand_of_not_ready (c : Collab) (s : State) (h : ¬ s.EncodeReady) :
    encodeCommand c s = s.raise (if s.digestLen.toNat ≠ s.params.hlen then .digestLen
      else if s.bits.toNat < 8 * s.params.hlen + 8 * s.saltLen.toNat + 9 then .outputBits else .capacity) := by
  split_ifs with hdigest hbits
  · exact encodeCommand_of_digestLen_ne c s hdigest
  · exact encodeCommand_of_few_bits c s (not_not.1 hdigest) hbits
  · refine encodeCommand_of_not_fit c s (not_not.1 hdigest) (not_lt.1 hbits) ?_
    by_contra hfit
    rw [not_or, not_lt, not_lt] at hfit
    exact h ⟨not_not.1 hdigest, not_lt.1 hbits, hfit⟩

/-- The draw leaves the EM buffer (rules R11, R40). -/
theorem drawSalt_bufByte_em (s : State) (hv : s.params.Valid) (hfit : s.cfgSaltLen.toNat ≤ s.params.scap) (k : Nat) :
    (s.drawSalt collab).bufByte .em k = s.bufByte .em k := by
  have hscap := scap_le hv
  exact drawSalt_read_outside collab s _ (.inr (by simp only [Buffer.base]; omega))

/-- Settles O51: the capacity of the draw first, then `encodeCommand_of_not_ready` on the drawn state. -/
theorem encodeRndErrors : Obligations.EncodeRndErrors := by
  intro s hv hwrapped
  constructor
  · intro hover
    exact exec_encodeRnd_of_not_fit s hwrapped hover
  · intro hfit herror
    have hnot : ¬ (s.drawSalt collab).EncodeReady := by
      rw [drawSalt_encodeReady_iff s hfit]
      rintro ⟨hdigest, hbits, hem⟩
      exact herror.elim (· hdigest) (Or.elim · hbits.not_gt (hem : (s.bits.toNat + 7) / 8 ≤ _).not_gt)
    refine ⟨_, exec_encodeRnd_of_fit s hwrapped hfit, ?_⟩
    rw [encodeCommand_of_not_ready collab _ hnot]
    exact ⟨rfl, rfl, rfl, rfl, drawSalt_saltOperand s, rfl, fun k _ => drawSalt_bufByte_em s hv hfit k⟩

/-- Settles O52: `accepts_after_encode` on the drawn state, whose salt length is the configured one. -/
theorem encodeRndVerifies : Obligations.EncodeRndVerifies := by
  intro s w hv hwrapped hfit hdigest hbits hem
  have hready := (drawSalt_encodeReady_iff s hfit).2 ⟨hdigest, hbits, hem⟩
  have hv' : (s.drawSalt collab).params.Valid := hv
  have haccepts := accepts_after_encode collab _ w hv' hready fun _ => rfl
  have hparams := (reopened_registers collab _ w hv' hready).1
  refine ⟨_, _, exec_encodeRnd_of_fit s hwrapped hfit,
    congrArg Host.Outcome.next (verifyCommand_of_accepts collab _ (hparams ▸ hv') _ haccepts), rfl, ?_⟩
  rw [State.acceptVerify_saltLenOut, State.drawSalt_saltLen, BitVec.ofNat_toNat, BitVec.setWidth_eq]

end Sys2Proof.Proofs
end
